-- ==== Sys2Proof/Word.lean ====
section
/-! DEFINITION. The words of the sensor interface controller: bytes on the bus, 16-bit command words and
channel values, the 32-bit result (`00_scope.md` R8). -/

namespace Sys2Proof

/-- A byte: one bus byte, one sensor register, one 8-bit block register (`u8`). -/
abbrev Byte := BitVec 8

/-- A 16-bit value (`u16`): a command word (R70) or a value read from the sensor (R48). -/
abbrev Word := BitVec 16

/-- A 32-bit value (`u32`): the RESULT register (R26). -/
abbrev Word32 := BitVec 32

end Sys2Proof
end

