-- ==== Sys2Proof/Syntax.lean ====
section
/-! DEFINITION. The SIC command set: one constructor per row of the opcode table (`30_encoding.md` R71). Each operand
type has exactly the legal operand values (R72). -/

namespace Sys2Proof

/-- R71: the ten commands, one per public operation. -/
inductive Instr where
  /-- `INIT`, `initialize()` (R130). -/
  | init
  /-- `PON`, `powerOn()` (R91). -/
  | pon
  /-- `POFF`, `powerOff()` (R92). -/
  | poff
  /-- `AEN en`, `setAlsEnable(bool)` (R93). -/
  | aen (en : Bool)
  /-- `PEN en`, `setProximityEnable(bool)` (R94). -/
  | pen (en : Bool)
  /-- `WEN en`, `setWaitEnable(bool)` (R95). -/
  | wen (en : Bool)
  /-- `AGAIN s`, `setAlsGain(selector)`: every selector byte is legal (R100). -/
  | again (sel : Byte)
  /-- `PGAIN s`, `setProximityGain(selector)`: every selector byte is legal (R101). -/
  | pgain (sel : Byte)
  /-- `RDALS`, `readAmbientLight()` (R116). -/
  | rdals
  /-- `RDPROX`, `readProximity()` (R117). -/
  | rdprox
  deriving DecidableEq, Repr

end Sys2Proof
end

