-- ==== Sys2Proof/WellFormed.lean ====
section
/-! DEFINITION. What makes a command word legal (`30_encoding.md` R70, R72, R73). The operand types of `Instr` hold
exactly the legal operands, so every `Instr` is well-formed; the checks of R73 are checks on the three FIELDS of a
word, each named after the reason it refuses. -/

namespace Sys2Proof

/-- R70: the three fields of a command word, before any check. -/
structure CommandFields where
  /-- Bits 15:8. -/
  arg : Byte
  /-- Bits 7:4. -/
  rsv : BitVec 4
  /-- Bits 3:0. -/
  op : BitVec 4
  deriving DecidableEq, Repr

/-- R72: the three operand shapes. -/
inductive OperandShape where
  /-- `ARG` must be 0. -/
  | noOperand
  /-- `ARG[0]` is the flag, `ARG[7:1]` must be 0. -/
  | enableFlag
  /-- `ARG` is the selector; every byte is legal. -/
  | gainSelector
  deriving DecidableEq, Repr

/-- R71, R73.1: the operand shape an opcode names; none for the reserved opcodes `0x0` and `0xB`..`0xF`. -/
def OperandShape.ofOpcode (op : BitVec 4) : Option OperandShape :=
  match op.toNat with
  | 1 => some .noOperand
  | 2 => some .noOperand
  | 3 => some .noOperand
  | 4 => some .enableFlag
  | 5 => some .enableFlag
  | 6 => some .enableFlag
  | 7 => some .gainSelector
  | 8 => some .gainSelector
  | 9 => some .noOperand
  | 10 => some .noOperand
  | _ => none

/-- R73.1: the opcode is not reserved. -/
def CommandFields.opcodeKnown (f : CommandFields) : Bool := (OperandShape.ofOpcode f.op).isSome

/-- R73.2: the reserved field is 0. -/
def CommandFields.reservedClear (f : CommandFields) : Bool := f.rsv == 0

/-- R73.3: a command with no operand has `ARG = 0`. -/
def CommandFields.noOperandClear (f : CommandFields) : Bool :=
  OperandShape.ofOpcode f.op != some .noOperand || f.arg == 0

/-- R73.4: an enable command has `ARG[7:1] = 0`. -/
def CommandFields.enableArgClear (f : CommandFields) : Bool :=
  OperandShape.ofOpcode f.op != some .enableFlag || f.arg.extractLsb' 1 7 == 0

/-- R73: a word is legal when none of the four conditions holds. -/
def CommandFields.wellFormed (f : CommandFields) : Bool :=
  f.opcodeKnown && f.reservedClear && f.noOperandClear && f.enableArgClear

/-- Every `Instr` is well-formed: an enable operand is one bit and every selector byte is legal (R72). -/
def Instr.wellFormed (i : Instr) : Bool :=
  match i with
  | .init => true
  | .pon => true
  | .poff => true
  | .aen _ => true
  | .pen _ => true
  | .wen _ => true
  | .again _ => true
  | .pgain _ => true
  | .rdals => true
  | .rdprox => true

end Sys2Proof
end

