-- ==== Sys2Proof/Decode.lean ====
section
/-! DEFINITION. The decoder of `30_encoding.md` R78, total on all 65,536 words and rejecting by name (R73), and after it
the encoder of R70 and R71. -/

namespace Sys2Proof

/-- R73: why a word is ILLEGAL, one reason per condition. All four complete the same way (R142). -/
inductive DecodeError where
  /-- R73.1: opcode `0x0` or `0xB`..`0xF`. -/
  | reservedOpcode
  /-- R73.2: `RSV != 0`. -/
  | reservedField
  /-- R73.3: `ARG != 0` on a command with no operand. -/
  | operandNotAllowed
  /-- R73.4: `ARG[7:1] != 0` on an enable command. -/
  | enableArgument
  deriving DecidableEq, Repr

/-- R70: the fields of a command word. -/
def fieldsOf (w : Word) : CommandFields :=
  { arg := w.extractLsb' 8 8, rsv := w.extractLsb' 4 4, op := w.extractLsb' 0 4 }

/-- R70: the word with these fields. -/
def wordOf (f : CommandFields) : Word := f.arg ++ f.rsv ++ f.op

/-- R72, R73.3: a command with no operand requires `ARG = 0`. -/
def decodePlain (arg : Byte) (i : Instr) : Except DecodeError Instr :=
  if arg = 0 then .ok i else .error .operandNotAllowed

/-- R72, R73.4: an enable command takes `ARG[0]` and requires `ARG[7:1] = 0`. -/
def decodeEnable (arg : Byte) (i : Bool → Instr) : Except DecodeError Instr :=
  if arg.extractLsb' 1 7 = 0 then .ok (i (arg.getLsbD 0)) else .error .enableArgument

/-- R78: the command the opcode names, with its operand from `ARG`. -/
def decodeOpcode (op : BitVec 4) (arg : Byte) : Except DecodeError Instr :=
  match op.toNat with
  | 1 => decodePlain arg .init
  | 2 => decodePlain arg .pon
  | 3 => decodePlain arg .poff
  | 4 => decodeEnable arg .aen
  | 5 => decodeEnable arg .pen
  | 6 => decodeEnable arg .wen
  | 7 => .ok (.again arg)
  | 8 => .ok (.pgain arg)
  | 9 => decodePlain arg .rdals
  | 10 => decodePlain arg .rdprox
  | _ => .error .reservedOpcode

/-- R78: the decoder; the reserved field is checked first. -/
def decode (w : Word) : Except DecodeError Instr :=
  let f := fieldsOf w
  if f.rsv = 0 then decodeOpcode f.op f.arg else .error .reservedField

/-- R71: the opcode of a command. -/
def Instr.opcode (i : Instr) : BitVec 4 :=
  match i with
  | .init => 0x1
  | .pon => 0x2
  | .poff => 0x3
  | .aen _ => 0x4
  | .pen _ => 0x5
  | .wen _ => 0x6
  | .again _ => 0x7
  | .pgain _ => 0x8
  | .rdals => 0x9
  | .rdprox => 0xA

/-- R72: the enable flag as an operand byte, `ARG[0]` the flag and `ARG[7:1] = 0`. -/
def enableArg (en : Bool) : Byte := if en then 0x01 else 0x00

/-- R72: the operand byte of a command. -/
def Instr.arg (i : Instr) : Byte :=
  match i with
  | .init => 0
  | .pon => 0
  | .poff => 0
  | .aen en => enableArg en
  | .pen en => enableArg en
  | .wen en => enableArg en
  | .again sel => sel
  | .pgain sel => sel
  | .rdals => 0
  | .rdprox => 0

/-- R70: the command word of a command, with `RSV = 0`. -/
def encode (i : Instr) : Word := wordOf { arg := i.arg, rsv := 0, op := i.opcode }

/-- The instruction the decoder reads from a table row's word of `nbits` bits. The command word is one 16-bit value
(R70, R55); bits above `nbits` are 0, and no command is longer than 16 bits. -/
def decodeTableWord (nbits w : Nat) : Option Instr :=
  if nbits ≤ 16 then (decode (BitVec.ofNat 16 (w % 2 ^ nbits))).toOption else none

end Sys2Proof
end

