-- ==== Sys2Proof/Config.lean ====
section
/-! DEFINITION. What is fixed for the block (`00_scope.md` R6, R7; `10_state.md` R28), and the free values:
opaque constants that no proof can evaluate (`20_memory.md` R50; `93_implementation_defined.md` P1, P6). -/

namespace Sys2Proof.Config

/-- R28, R40: the one bus address every transaction targets, a 7-bit constant. -/
def devAddr : BitVec 7 := 0x39

/-- R6: ALS_GAIN_RESET, decided as 1 (`92_eei_decisions.md` D7). -/
def alsGainReset : Byte := 1

/-- R6: PROX_GAIN_RESET, decided as 8 (D7). -/
def proxGainReset : Byte := 8

/-- R6: PGAIN_KEEP_MASK, decided as `0xF3` (D8). -/
def pgainKeepMask : Byte := 0xF3

/-- R6: T_SETTLE, the OPEN duration of the settle wait. R180 has a model represent time by fairness alone, so no
definition reads it: nothing here depends on how long the wait takes. -/
opaque tSettle : Nat

/-- R7: the device factor DF. -/
def calDF : Nat := 52
/-- R7: the glass-attenuation factor GA. -/
def calGA : Nat := 490
/-- R7: the coefficient B of the first infrared-adjusted term. -/
def calB : Nat := 1862
/-- R7: the coefficient C of the second infrared-adjusted term. -/
def calC : Nat := 746
/-- R7: the coefficient D of the second infrared-adjusted term. -/
def calD : Nat := 1291

/-- Free value (R50, P6): whether the transport fails the transaction that takes free draw `n`. -/
opaque freeFails : Nat → Bool

/-- Free value (R50, P6, P7): the first byte the transport would return on free draw `n`. -/
opaque freeByte0 : Nat → Byte

/-- Free value (R50, P6, P7): the second byte the transport would return on free draw `n`. -/
opaque freeByte1 : Nat → Byte

/-- Free value: the quotient of a dividend by a gain of 0. No rule gives one, and R23 says no gain is ever 0. -/
opaque zeroDivide : Nat → Nat

end Sys2Proof.Config
end

