-- ==== Sys2Proof/Machine/State.lean ====
section
/-! DEFINITION. The state of the block (`10_state.md` R20) with the free inputs of the other agents and the transaction
trace, all plain data; the reasons a run stops; and the state after reset (`70_reset_and_hazards.md` R170). -/

namespace Sys2Proof.Machine

/-- Why a run stops with a fault. -/
inductive Fault where
  /-- R143: the host issued a word while `STATUS.BUSY = 1`. Recorded by the host's `call` and `issue` events
  (Agents.lean); the step raises it once the command in flight has ended, because "a run with this fault satisfies no
  claim". Safe: no claim about a later state can be made. -/
  | issueWhileBusy
  deriving DecidableEq, Repr

/-- Why a step gives an instruction no meaning. -/
inductive Refusal where
  /-- Raised only by an arm of `exec` that has no meaning yet; this model has no such arm. Safe. -/
  | notModelled (mnemonic : String)
  deriving DecidableEq, Repr

/-- R42: the sensor registers of the map. Their offsets are in Operands.lean. -/
inductive SensorReg where
  | enable | atime | ptime | wtime | pers | config | ppulse | control
  | ch0datal | ch0datah | ch1datal | ch1datah | pdatah | pdatal | poffset
  deriving DecidableEq, Repr

/-- R50: one bus transaction request. -/
inductive BusReq where
  /-- `BusWrite(bytes)`. -/
  | write (bytes : List Byte)
  /-- `BusRead(n)`. -/
  | read (n : Nat)
  deriving DecidableEq, Repr

/-- R50: the transport's response on `bus_rsp`; a write's `ok` carries no bytes. -/
inductive BusRsp where
  | ok (bytes : List Byte)
  | fail
  deriving DecidableEq, Repr

/-- R50: one answer of the transport as a free input. An `ok` draw carries the bytes the bus would return, in bus order:
a 1-byte read takes the first, a write takes neither. R57: the two bytes are one draw. -/
inductive Draw where
  | ok (b0 b1 : Byte)
  | fail
  deriving DecidableEq, Repr

/-- One entry of the transaction trace (R154). -/
inductive TraceEvent where
  /-- R33: the controller accepted a word and decoded it to this command. -/
  | started (cmd : Instr)
  /-- A transaction to bus address `dev` that the transport answered. -/
  | bus (dev : BitVec 7) (req : BusReq) (rsp : BusRsp)
  /-- R171: a transaction in flight when the block was reset; it "may or may not complete on the bus". -/
  | abandoned (dev : BitVec 7) (req : BusReq)
  /-- R150: `settle_req`. -/
  | settleReq
  /-- R150: `settle_done`. -/
  | settleDone
  deriving DecidableEq, Repr

/-- R27: the sequencer state. -/
inductive Seq where
  | idle
  /-- Command `cmd` is in flight, `k` of its transactions have completed, and `vals` holds the values read so far,
  in reading order, a 1-byte value zero-extended. Transaction `k` is on `bus_req`. -/
  | busy (cmd : Instr) (k : Nat) (vals : List Word)
  /-- Command `cmd` waits for the settle timer. -/
  | settling (cmd : Instr)
  deriving DecidableEq, Repr

/-- R5, R32: one move of one agent. -/
inductive Event where
  /-- The host issues the word and blocks until it completes: the command as one atomic step (R27, D1). -/
  | call (w : Word)
  /-- The host presents the word with an issue event and does not wait. -/
  | issue (w : Word)
  /-- The transport completes the transaction on `bus_req`. -/
  | transport
  /-- The settle timer signals `settle_done`. -/
  | settleDone
  /-- The environment resets the block. -/
  | rst
  deriving DecidableEq, Repr

/-- R20: the block's five pieces of state, then the run's record (R143, R154), then the free inputs of the agents. -/
structure State where
  /-- R21: the ALS gain multiplier. -/
  alsGain : Byte
  /-- R22: the proximity gain multiplier. -/
  proxGain : Byte
  /-- R25: BUSY in bit 7, CODE in bits 1:0. -/
  status : Byte
  /-- R26: the last result. -/
  result : Word32
  /-- R27: the sequencer. -/
  seq : Seq
  /-- R143: the recorded host error, kept for the rest of the run. -/
  fault : Option Fault
  /-- R154: the commands started, the transactions and the settle signals so far, oldest first. -/
  trace : List TraceEvent
  /-- Which agent moves next, oldest first (the model's own input; log entry 2). -/
  schedule : List Event
  /-- The transport's answers to come, oldest first (the model's own input; log entry 3). -/
  answers : List Draw
  /-- How many free draws have been taken after `answers` ran out (the model's own counter; log entry 3). -/
  draws : Nat
  deriving DecidableEq, Repr

/-- R170: the state right after reset, with no input pending and nothing on the bus yet. -/
def State.reset : State where
  alsGain := Config.alsGainReset
  proxGain := Config.proxGainReset
  status := 0x00
  result := 0x00000000
  seq := .idle
  fault := none
  trace := []
  schedule := []
  answers := []
  draws := 0

end Sys2Proof.Machine
end

