-- ==== Sys2Proof/Machine/Flags.lean ====
section
/-! DEFINITION. The STATUS register's fields and the completion codes (`10_state.md` R25, `60_exceptions.md` R140). They
are the only flags of the block (R29). -/

namespace Sys2Proof.Machine

/-- R140: how a command ends. `0b11` is never produced. -/
inductive Code where
  /-- Every transaction completed, and so did the settle wait if there is one. -/
  | ok
  /-- A bus transaction completed with `fail`. -/
  | tfail
  /-- The word decodes to no command. -/
  | illegal
  deriving DecidableEq, Repr

/-- R25: the 2-bit CODE field. -/
def codeBits (c : Code) : BitVec 2 :=
  match c with
  | .ok => 0b00
  | .tfail => 0b01
  | .illegal => 0b10

/-- R25: STATUS as `{BUSY, 0b00000, CODE}`. -/
def statusWord (busy : BitVec 1) (code : BitVec 2) : Byte := busy ++ (0 : BitVec 5) ++ code

/-- R25: STATUS while a command is in flight; CODE reads `0b00`. -/
def statusBusy : Byte := statusWord 1 0

/-- R25: STATUS as a command completes with this code. -/
def statusDone (c : Code) : Byte := statusWord 0 (codeBits c)

/-- R25: bit 7. -/
def busyBit (status : Byte) : Bool := status.getLsbD 7

/-- R25: bits 6:2, reserved. -/
def reservedBits (status : Byte) : BitVec 5 := status.extractLsb' 2 5

/-- R25: bits 1:0. -/
def codeField (status : Byte) : BitVec 2 := status.extractLsb' 0 2

/-- R33: a command is in flight as the host sees it. -/
def State.isBusy (s : State) : Bool := busyBit s.status

end Sys2Proof.Machine
end

