-- ==== Sys2Proof/Machine/Operands.lean ====
section
/-! DEFINITION. The operand forms: sensor register offsets (`20_memory.md` R42), the first byte of a select and of a
register write (R51, R52), ENABLE masks and updates (R43, R90), gain codes and merges (R44 to R46, R100, R101), and the
values of a 1-byte and a 2-byte read (R52, R53). -/

namespace Sys2Proof.Machine

/-- R42: the byte offset of a sensor register. -/
def SensorReg.offset (r : SensorReg) : Byte :=
  match r with
  | .enable => 0x00
  | .atime => 0x01
  | .ptime => 0x02
  | .wtime => 0x03
  | .pers => 0x0C
  | .config => 0x0D
  | .ppulse => 0x0E
  | .control => 0x0F
  | .ch0datal => 0x14
  | .ch0datah => 0x15
  | .ch1datal => 0x16
  | .ch1datah => 0x17
  | .pdatah => 0x18
  | .pdatal => 0x19
  | .poffset => 0x1E

/-- R51: the auto-increment protocol flag of a register write's first byte. -/
def autoIncrement : Byte := 0xE0

/-- R52: the select `W[a]`, the bare offset. -/
def selectReq (r : SensorReg) : BusReq := .write [r.offset]

/-- R51: the register write `W[a | 0xE0, v]`. -/
def writeReq (r : SensorReg) (v : Byte) : BusReq := .write [r.offset ||| autoIncrement, v]

/-- R53: the value of a 2-byte read, little-endian: the first byte on the bus is the low byte. -/
def littleEndian (b0 b1 : Byte) : Word := b0.setWidth 16 ||| (b1.setWidth 16 <<< 8)

/-- R43: the mask of the power bit. -/
def maskPON : Byte := 0x01
/-- R43: the mask of the ALS enable bit. -/
def maskAEN : Byte := 0x02
/-- R43: the mask of the proximity enable bit. -/
def maskPEN : Byte := 0x04
/-- R43: the mask of the wait enable bit. -/
def maskWEN : Byte := 0x08

/-- R90: the byte `UpdateEnable(mask, set)` writes back for the byte `e` it read. -/
def enableUpdate (mask : Byte) (set : Bool) (e : Byte) : Byte :=
  if set then e ||| mask else e &&& (~~~mask &&& 0xFF)

/-- R45, R100: the ALS code and the multiplier an AGAIN selector stands for; an unrecognised one is 1x. -/
def alsSelect (sel : Byte) : BitVec 2 × Byte :=
  match sel.toNat with
  | 1 => (0b00, 1)
  | 8 => (0b01, 8)
  | 16 => (0b10, 16)
  | 120 => (0b11, 120)
  | _ => (0b00, 1)

/-- R46, R101: the proximity code and the multiplier a PGAIN selector stands for; an unrecognised one is 1x. -/
def proxSelect (sel : Byte) : BitVec 2 × Byte :=
  match sel.toNat with
  | 1 => (0b00, 1)
  | 2 => (0b01, 2)
  | 4 => (0b10, 4)
  | 8 => (0b11, 8)
  | _ => (0b00, 1)

/-- R100: CONTROL with the ALS code merged into bits 1:0, bits 7:2 kept. -/
def mergeAlsCode (code : BitVec 2) (c : Byte) : Byte := (c &&& 0xFC) ||| code.setWidth 8

/-- R101: CONTROL with the proximity code merged into bits 3:2, under the keep mask (R6: `0xF3`, or `0x03` under the
alternative reading). -/
def mergeProxCode (keep : Byte) (code : BitVec 2) (c : Byte) : Byte :=
  (c &&& keep) ||| (code.setWidth 8 <<< 2)

end Sys2Proof.Machine
end

