-- ==== Sys2Proof/Machine/Ops.lean ====
section
/-! DEFINITION. The shared operations: the transport's draws and one bus transaction (`20_memory.md` R50), the three
micro-operations (R51 to R53), `UpdateEnable` (R90), `Settle` (R150), acceptance (R33), the three completions (R140 to
R142), of which `raiseTransportFailure` is the block's one exception, and block reset (R170, R171). -/

namespace Sys2Proof.Machine

/-- R50: the free answer of the transport on free draw `n`; nothing constrains it. -/
def freeDraw (n : Nat) : Draw :=
  if Config.freeFails n then .fail else .ok (Config.freeByte0 n) (Config.freeByte1 n)

/-- R50: the answer the transport will give to the `k`-th transaction from here: from the list of answers, and free
once the list has run out. -/
def State.drawAt (s : State) (k : Nat) : Draw :=
  match s.answers[k]? with
  | some d => d
  | none => freeDraw (s.draws + (k - s.answers.length))

/-- The state after the transport has given `n` answers. -/
def State.skipDraws (s : State) (n : Nat) : State :=
  { s with answers := s.answers.drop n, draws := s.draws + (n - s.answers.length) }

/-- R154: one more entry of the trace. -/
def State.log (e : TraceEvent) (s : State) : State := { s with trace := s.trace ++ [e] }

/-- R50: the response the transport's answer makes on `bus_rsp`: a read of `n` bytes returns the first `n`. -/
def respond (req : BusReq) (d : Draw) : BusRsp :=
  match d with
  | .fail => .fail
  | .ok b0 b1 =>
    match req with
    | .write _ => .ok []
    | .read n => .ok ([b0, b1].take n)

/-- R40, R154: the trace entry of one completed transaction; every transaction targets `DEV_ADDR`. -/
def busEvent (req : BusReq) (d : Draw) : TraceEvent := .bus Config.devAddr req (respond req d)

/-- R50: one bus transaction: the transport answers and the transaction is in the trace. -/
def transact (req : BusReq) (s : State) : State := (s.skipDraws 1).log (busEvent req (s.drawAt 0))

/-- The result of part of a command: it went on with a value, or a transaction failed (R141). -/
inductive Res (α : Type) where
  | done (v : α) (s : State)
  | failed (s : State)

/-- R141: nothing after a failed transaction runs. -/
def Res.andThen {α β : Type} (r : Res α) (f : α → State → Res β) : Res β :=
  match r with
  | .done v s => f v s
  | .failed s => .failed s

/-- R50: `BusWrite(bytes)`. -/
def busWrite (req : BusReq) (s : State) : Res Unit :=
  match s.drawAt 0 with
  | .ok _ _ => .done () (transact req s)
  | .fail => .failed (transact req s)

/-- R50: `BusRead(1)`. -/
def busRead1 (s : State) : Res Byte :=
  match s.drawAt 0 with
  | .ok b0 _ => .done b0 (transact (.read 1) s)
  | .fail => .failed (transact (.read 1) s)

/-- R50, R53: `BusRead(2)`, its two bytes as one little-endian value. -/
def busRead2 (s : State) : Res Word :=
  match s.drawAt 0 with
  | .ok b0 b1 => .done (littleEndian b0 b1) (transact (.read 2) s)
  | .fail => .failed (transact (.read 2) s)

/-- R51: `MemWrite(a, 1, v)`. -/
def memWrite (r : SensorReg) (v : Byte) (s : State) : Res Unit := busWrite (writeReq r v) s

/-- R52: `MemRead(a, 1)`: the select, then the read; if the select fails, the read is not issued. -/
def memRead1 (r : SensorReg) (s : State) : Res Byte :=
  (busWrite (selectReq r) s).andThen fun _ s => busRead1 s

/-- R53: `MemRead(a, 2)`. -/
def memRead2 (r : SensorReg) (s : State) : Res Word :=
  (busWrite (selectReq r) s).andThen fun _ s => busRead2 s

/-- Register writes one after another, in the order of the list (R60). -/
def memWrites (l : List (SensorReg × Byte)) (s : State) : Res Unit :=
  match l with
  | [] => .done () s
  | (r, v) :: rest => (memWrite r v s).andThen fun _ s => memWrites rest s

/-- R90: `UpdateEnable(mask, set)`. -/
def updateEnable (mask : Byte) (set : Bool) (s : State) : Res Unit :=
  (memRead1 .enable s).andThen fun e s => memWrite .enable (enableUpdate mask set e) s

/-- R150: `Settle()` of a command run as one step: the request, then the timer's signal. It cannot fail. -/
def settle (s : State) : Res Unit := .done () ((s.log .settleReq).log .settleDone)

/-- R33: the controller accepts a command word. -/
def accept (s : State) : State := { s with status := statusBusy }

/-- R140: a command completes with a code. -/
def complete (c : Code) (s : State) : State := { s with status := statusDone c, seq := .idle }

/-- R141: `raise TransportFailure()`, the block's one exception: STATUS and SEQ are written and nothing else. R147: it
saves nothing but CODE, changes no mode and transfers control nowhere; R148: there is no return from it. -/
def raiseTransportFailure (s : State) : State := complete .tfail s

/-- R142: the word named no command. -/
def completeIllegal (s : State) : State := complete .illegal s

/-- R140, R141: the end of a command. -/
def finish (r : Res Unit) : State :=
  match r with
  | .done _ s => complete .ok s
  | .failed s => raiseTransportFailure s

/-- R100, D10: `ALS_GAIN <- m`. -/
def setAlsGain (m : Byte) (s : State) : Res Unit := .done () { s with alsGain := m }

/-- R101, D10: `PROX_GAIN <- m`. -/
def setProxGain (m : Byte) (s : State) : Res Unit := .done () { s with proxGain := m }

/-- R26: `RESULT <- v`. -/
def setResult (v : Word32) (s : State) : Res Unit := .done () { s with result := v }

/-- R170: the block's own state at its reset values. No transaction is issued and the sensor is not reset. -/
def resetBlock (s : State) : State :=
  { s with alsGain := Config.alsGainReset, proxGain := Config.proxGainReset, status := 0x00, result := 0x00000000, seq := .idle }

end Sys2Proof.Machine
end

