-- ==== Sys2Proof/Machine/Control.lean ====
section
/-! DEFINITION. The control commands (`41_control.md` R91 to R95): each is `UpdateEnable` of one bit of ENABLE, and PON
alone then waits for the settle timer. -/

namespace Sys2Proof.Machine

/-- R91: PON sets the power bit, then settles. -/
def execPon (s : State) : Host.Outcome State Fault Refusal :=
  .next (finish ((updateEnable maskPON true s).andThen fun _ s => settle s))

/-- R92: POFF clears the power bit; there is no settle wait. -/
def execPoff (s : State) : Host.Outcome State Fault Refusal :=
  .next (finish (updateEnable maskPON false s))

/-- R93: AEN sets or clears the ALS enable bit. -/
def execAen (en : Bool) (s : State) : Host.Outcome State Fault Refusal :=
  .next (finish (updateEnable maskAEN en s))

/-- R94: PEN sets or clears the proximity enable bit. -/
def execPen (en : Bool) (s : State) : Host.Outcome State Fault Refusal :=
  .next (finish (updateEnable maskPEN en s))

/-- R95: WEN sets or clears the wait-timer enable bit. -/
def execWen (en : Bool) (s : State) : Host.Outcome State Fault Refusal :=
  .next (finish (updateEnable maskWEN en s))

end Sys2Proof.Machine
end

