-- ==== Sys2Proof/Machine/Conversion.lean ====
section
/-! DEFINITION. The conversion commands (`43_conversion.md`): the fixed-point light pipeline, one definition per rule R110
to R115 with its own truncation point, and RDALS (R116) and RDPROX (R117). Arithmetic is on unbounded integers (R9). -/

namespace Sys2Proof.Machine

/-- R110: the integration-time factor. -/
def alsit (atime : Byte) : Nat := (87 * (256 - atime.toNat)) / 32

/-- R111: the first infrared-adjusted term; the division comes before the subtraction. -/
def iac1 (ch0 ch1 : Word) : Int := (ch0.toNat : Int) - ((Config.calB * ch1.toNat / 1000 : Nat) : Int)

/-- R112: the dividend of the second infrared-adjusted term. -/
def iac2Dividend (ch0 ch1 : Word) : Int := (Config.calC : Int) * ch0.toNat - (Config.calD : Int) * ch1.toNat

/-- R112: the second infrared-adjusted term; one division, truncated toward zero. -/
def iac2 (ch0 ch1 : Word) : Int := (iac2Dividend ch0 ch1).tdiv 1000

/-- R113: the infrared-adjusted count, clamped at 0. -/
def iac (ch0 ch1 : Word) : Nat := (max (max (iac1 ch0 ch1) (iac2 ch0 ch1)) 0).toNat

/-- R114: the lux-per-count factor. -/
def lpc (atime : Byte) : Nat := (Config.calGA * Config.calDF) / alsit atime

/-- R115, R117: the last division, by a gain multiplier. R23: no gain is ever 0; no rule gives a quotient there, so it
is a free value (log entry 7). -/
def gainDiv (a : Nat) (g : Byte) : Nat := if g = 0 then Config.zeroDivide a else a / g.toNat

/-- R115: the ALS value. -/
def lux (ch0 ch1 : Word) (atime g : Byte) : Nat := gainDiv (iac ch0 ch1 * lpc atime) g

/-- R116: `zext_32(LUX(ch0, ch1, at, ALS_GAIN))`. -/
def alsResult (ch0 ch1 : Word) (atime g : Byte) : Word32 := BitVec.ofNat 32 (lux ch0 ch1 atime g)

/-- R117: `zext_32(p div PROX_GAIN)`. -/
def proxResult (p : Word) (g : Byte) : Word32 := BitVec.ofNat 32 (gainDiv p.toNat g)

/-! R118, D26: the same pipeline on a datapath of signed 32-bit words, with wrap-around arithmetic. No meaning uses it;
R118 says that it computes R110 to R117 exactly. -/

/-- R110 on 32-bit words. -/
def alsit32 (atime : Byte) : Word32 := (87 * (256 - atime.setWidth 32)).sdiv 32

/-- R111 on 32-bit words. -/
def iac1Word32 (ch0 ch1 : Word) : Word32 :=
  ch0.setWidth 32 - (BitVec.ofNat 32 Config.calB * ch1.setWidth 32).sdiv 1000

/-- R112 on 32-bit words. -/
def iac2Word32 (ch0 ch1 : Word) : Word32 :=
  (BitVec.ofNat 32 Config.calC * ch0.setWidth 32 - BitVec.ofNat 32 Config.calD * ch1.setWidth 32).sdiv 1000

/-- The larger of two signed 32-bit words. -/
def max32 (a b : Word32) : Word32 := if a.slt b then b else a

/-- R113 on 32-bit words. -/
def iac32 (ch0 ch1 : Word) : Word32 := max32 (max32 (iac1Word32 ch0 ch1) (iac2Word32 ch0 ch1)) 0

/-- R114 on 32-bit words. -/
def lpc32 (atime : Byte) : Word32 :=
  (BitVec.ofNat 32 Config.calGA * BitVec.ofNat 32 Config.calDF).sdiv (alsit32 atime)

/-- R115 on 32-bit words. -/
def lux32 (ch0 ch1 : Word) (atime g : Byte) : Word32 := (iac32 ch0 ch1 * lpc32 atime).sdiv (g.setWidth 32)

/-- R117 on 32-bit words. -/
def prox32 (p : Word) (g : Byte) : Word32 := (p.setWidth 32).sdiv (g.setWidth 32)

/-- R116: RDALS reads channel 0, channel 1 and ATIME, in that order. -/
def execRdals (s : State) : Host.Outcome State Fault Refusal :=
  .next (finish ((memRead2 .ch0datal s).andThen fun ch0 s =>
    (memRead2 .ch1datal s).andThen fun ch1 s =>
    (memRead1 .atime s).andThen fun atime s => setResult (alsResult ch0 ch1 atime s.alsGain) s))

/-- R117: RDPROX reads the proximity pair at its lower offset. -/
def execRdprox (s : State) : Host.Outcome State Fault Refusal :=
  .next (finish ((memRead2 .pdatah s).andThen fun p s => setResult (proxResult p s.proxGain) s))

end Sys2Proof.Machine
end

