-- ==== Sys2Proof/Machine/Gain.lean ====
section
/-! DEFINITION. The gain commands (`42_gain.md` R100, R101): a read-modify-write of CONTROL, and the multiplier recorded
only after the write has completed. -/

namespace Sys2Proof.Machine

/-- R100: AGAIN. -/
def execAgain (sel : Byte) (s : State) : Host.Outcome State Fault Refusal :=
  let (code, m) := alsSelect sel
  .next (finish ((memRead1 .control s).andThen fun c s =>
    (memWrite .control (mergeAlsCode code c) s).andThen fun _ s => setAlsGain m s))

/-- R101: PGAIN. -/
def execPgain (sel : Byte) (s : State) : Host.Outcome State Fault Refusal :=
  let (code, m) := proxSelect sel
  .next (finish ((memRead1 .control s).andThen fun c s =>
    (memWrite .control (mergeProxCode Config.pgainKeepMask code c) s).andThen fun _ s => setProxGain m s))

end Sys2Proof.Machine
end

