-- ==== Sys2Proof/Machine/Initialize.lean ====
section
/-! DEFINITION. The initialization command (`44_initialize.md` R130): nine register writes, the bodies of AEN 1 and PON,
and the settle wait. -/

namespace Sys2Proof.Machine

/-- R130, R131: steps 1 to 7, in order. -/
def initWrites : List (SensorReg × Byte) :=
  [(.atime, 0xF8), (.enable, 0x00), (.atime, 0xFF), (.ptime, 0xFF), (.wtime, 0xFF), (.pers, 0x22), (.config, 0x00),
   (.ppulse, 0x08), (.control, 0x2C)]

/-- R130: INIT. R133: it writes neither gain register. -/
def execInit (s : State) : Host.Outcome State Fault Refusal :=
  .next (finish ((memWrites initWrites s).andThen fun _ s =>
    (updateEnable maskAEN true s).andThen fun _ s =>
    (updateEnable maskPON true s).andThen fun _ s => settle s))

end Sys2Proof.Machine
end

