-- ==== Sys2Proof/Machine/Dispatch.lean ====
section
/-! DEFINITION. One arm per command: the whole command as one step (`10_state.md` R27, `92_eei_decisions.md` D1). -/

namespace Sys2Proof.Machine

def exec (i : Instr) (s : State) : Host.Outcome State Fault Refusal :=
  match i with
  | .init => Sys2Proof.Machine.execInit s
  | .pon => Sys2Proof.Machine.execPon s
  | .poff => Sys2Proof.Machine.execPoff s
  | .aen en => Sys2Proof.Machine.execAen en s
  | .pen en => Sys2Proof.Machine.execPen en s
  | .wen en => Sys2Proof.Machine.execWen en s
  | .again sel => Sys2Proof.Machine.execAgain sel s
  | .pgain sel => Sys2Proof.Machine.execPgain sel s
  | .rdals => Sys2Proof.Machine.execRdals s
  | .rdprox => Sys2Proof.Machine.execRdprox s

end Sys2Proof.Machine
end

