-- ==== Sys2Proof/Machine/Sequencer.lean ====
section
/-! DEFINITION. A command as one step per transaction (`10_state.md` R27): which transaction comes next given the values
read so far, what the block writes when the last one has completed, and the moves of the transport and the settle
timer. Written from the transaction lists of R90, R100, R101, R116, R117 and R131, not from the meanings of the
commands run as one step. -/

namespace Sys2Proof.Machine

/-- The `j`-th value read so far. R27's sequencer has read it whenever a request needs it; the default is never used
there. -/
def valAt (vals : List Word) (j : Nat) : Word := (vals[j]?).getD 0

/-- The `j`-th value read so far, of a 1-byte read. -/
def byteAt (vals : List Word) (j : Nat) : Byte := (valAt vals j).setWidth 8

/-- R90: the three transactions of `UpdateEnable`; `e` is the byte the second one reads. -/
def enableRequest (mask : Byte) (set : Bool) (e : Byte) (k : Nat) : Option BusReq :=
  match k with
  | 0 => some (selectReq .enable)
  | 1 => some (.read 1)
  | 2 => some (writeReq .enable (enableUpdate mask set e))
  | _ => none

/-- R100, R101: the three transactions of a gain command; `v` is the byte it writes back. -/
def controlRequest (v : Byte) (k : Nat) : Option BusReq :=
  match k with
  | 0 => some (selectReq .control)
  | 1 => some (.read 1)
  | 2 => some (writeReq .control v)
  | _ => none

/-- R116: the six transactions of RDALS. -/
def rdalsRequest (k : Nat) : Option BusReq :=
  match k with
  | 0 => some (selectReq .ch0datal)
  | 1 => some (.read 2)
  | 2 => some (selectReq .ch1datal)
  | 3 => some (.read 2)
  | 4 => some (selectReq .atime)
  | 5 => some (.read 1)
  | _ => none

/-- R117: the two transactions of RDPROX. -/
def rdproxRequest (k : Nat) : Option BusReq :=
  match k with
  | 0 => some (selectReq .pdatah)
  | 1 => some (.read 2)
  | _ => none

/-- R131: the fifteen transactions of INIT. -/
def initRequest (vals : List Word) (k : Nat) : Option BusReq :=
  match k with
  | 0 => some (writeReq .atime 0xF8)
  | 1 => some (writeReq .enable 0x00)
  | 2 => some (writeReq .atime 0xFF)
  | 3 => some (writeReq .ptime 0xFF)
  | 4 => some (writeReq .wtime 0xFF)
  | 5 => some (writeReq .pers 0x22)
  | 6 => some (writeReq .config 0x00)
  | 7 => some (writeReq .ppulse 0x08)
  | 8 => some (writeReq .control 0x2C)
  | 9 => some (selectReq .enable)
  | 10 => some (.read 1)
  | 11 => some (writeReq .enable (byteAt vals 0 ||| maskAEN))
  | 12 => some (selectReq .enable)
  | 13 => some (.read 1)
  | 14 => some (writeReq .enable (byteAt vals 1 ||| maskPON))
  | _ => none

/-- R27: transaction `k` of a command that has read `vals`; none when there is no transaction `k`. -/
def request (cmd : Instr) (vals : List Word) (k : Nat) : Option BusReq :=
  match cmd with
  | .init => initRequest vals k
  | .pon => enableRequest maskPON true (byteAt vals 0) k
  | .poff => enableRequest maskPON false (byteAt vals 0) k
  | .aen en => enableRequest maskAEN en (byteAt vals 0) k
  | .pen en => enableRequest maskPEN en (byteAt vals 0) k
  | .wen en => enableRequest maskWEN en (byteAt vals 0) k
  | .again sel => controlRequest (mergeAlsCode (alsSelect sel).1 (byteAt vals 0)) k
  | .pgain sel => controlRequest (mergeProxCode Config.pgainKeepMask (proxSelect sel).1 (byteAt vals 0)) k
  | .rdals => rdalsRequest k
  | .rdprox => rdproxRequest k

/-- How many transactions a command has when none fails (R90, R100, R101, R116, R117, R131). -/
def txnCount (cmd : Instr) : Nat :=
  match cmd with
  | .init => 15
  | .pon => 3
  | .poff => 3
  | .aen _ => 3
  | .pen _ => 3
  | .wen _ => 3
  | .again _ => 3
  | .pgain _ => 3
  | .rdals => 6
  | .rdprox => 2

/-- R91, R134: the commands that end with the settle wait. -/
def settles (cmd : Instr) : Bool :=
  match cmd with
  | .init => true
  | .pon => true
  | .poff => false
  | .aen _ => false
  | .pen _ => false
  | .wen _ => false
  | .again _ => false
  | .pgain _ => false
  | .rdals => false
  | .rdprox => false

/-- R21, R22, R26: the block register a command writes once all its transactions have completed. -/
def commit (cmd : Instr) (vals : List Word) (s : State) : State :=
  match cmd with
  | .init => s
  | .pon => s
  | .poff => s
  | .aen _ => s
  | .pen _ => s
  | .wen _ => s
  | .again sel => { s with alsGain := (alsSelect sel).2 }
  | .pgain sel => { s with proxGain := (proxSelect sel).2 }
  | .rdals => { s with result := alsResult (valAt vals 0) (valAt vals 1) (byteAt vals 2) s.alsGain }
  | .rdprox => { s with result := proxResult (valAt vals 0) s.proxGain }

/-- The value a transaction adds to `vals`: none for a write. -/
def readValue (req : BusReq) (b0 b1 : Byte) : List Word :=
  match req with
  | .write _ => []
  | .read n => [if n = 1 then b0.setWidth 16 else littleEndian b0 b1]

/-- R27, R150: `k` transactions of `cmd` have completed: the next one goes out, or the settle wait is requested, or the
command completes. -/
def advance (cmd : Instr) (k : Nat) (vals : List Word) (s : State) : State :=
  if k < txnCount cmd then { s with seq := .busy cmd k vals }
  else if settles cmd then ({ s with seq := .settling cmd }).log .settleReq
  else complete .ok (commit cmd vals s)

/-- R27: a decoded command starts. -/
def startCommand (cmd : Instr) (s : State) : State := advance cmd 0 [] s

/-- R32: what stands on `bus_req`. -/
def busReqPort (s : State) : Option BusReq :=
  match s.seq with
  | .busy cmd k vals => request cmd vals k
  | .idle => none
  | .settling _ => none

/-- R32: whether the settle wait is requested. -/
def settleReqPort (s : State) : Bool :=
  match s.seq with
  | .settling _ => true
  | .idle => false
  | .busy _ _ _ => false

/-- R32: the `status` port. -/
def statusPort (s : State) : Byte := s.status

/-- R32: the `result` port. -/
def resultPort (s : State) : Word32 := s.result

/-- R50, R141: the transport completes the transaction on `bus_req`. With none there, it has nothing to do. -/
def transportAnswers (s : State) : State :=
  match s.seq with
  | .idle => s
  | .settling _ => s
  | .busy cmd k vals =>
    match request cmd vals k with
    | none => s
    | some req =>
      match s.drawAt 0 with
      | .fail => raiseTransportFailure (transact req s)
      | .ok b0 b1 => advance cmd (k + 1) (vals ++ readValue req b0 b1) (transact req s)

/-- R150: the settle timer signals `settle_done`. With no wait requested, it has nothing to do. -/
def settleTimerDone (s : State) : State :=
  match s.seq with
  | .idle => s
  | .busy _ _ _ => s
  | .settling _ => complete .ok (s.log .settleDone)

/-- R171: a reset abandons the command in flight; a transaction in flight is left unanswered. -/
def abandonInFlight (s : State) : State :=
  match busReqPort s with
  | none => s
  | some req => s.log (.abandoned Config.devAddr req)

/-- R170, R171: the `rst` event. -/
def blockReset (s : State) : State := resetBlock (abandonInFlight s)

end Sys2Proof.Machine
end

