-- ==== Sys2Proof/Machine/Agents.lean ====
section
/-! DEFINITION. The agents of `00_scope.md` R5 and the order they move in: the host's issue protocol (`10_state.md` R33,
`60_exceptions.md` R143), and one move of whichever agent is next. -/

namespace Sys2Proof.Machine

/-- R143: a word issued while BUSY is recorded, not accepted, and the command in flight is unchanged. -/
def recordIssueWhileBusy (s : State) : State := { s with fault := some .issueWhileBusy }

/-- R33: a word is accepted and decodes to this command. -/
def acceptCommand (i : Instr) (s : State) : State := (accept s).log (.started i)

/-- R33, R142: an idle block accepts the word, decodes it and runs the command as one step. -/
def runWord (w : Word) (s : State) : Host.Outcome State Fault Refusal :=
  match decode w with
  | .ok i => exec i (acceptCommand i s)
  | .error _ => .next (completeIllegal (accept s))

/-- R33, R142: an idle block accepts the word and decodes it; a command is then in flight. -/
def startWord (w : Word) (s : State) : State :=
  match decode w with
  | .ok i => startCommand i (acceptCommand i s)
  | .error _ => completeIllegal (accept s)

/-- R33, R143: the host issues a word and waits for its completion. -/
def hostCall (w : Word) (s : State) : Host.Outcome State Fault Refusal :=
  if s.isBusy then .next (recordIssueWhileBusy s) else runWord w s

/-- R33, R143: the host issues a word and does not wait. -/
def hostIssue (w : Word) (s : State) : State :=
  if s.isBusy then recordIssueWhileBusy s else startWord w s

/-- The event that comes next: the head of the schedule, and with an empty schedule the agent the block waits for
(R180: the transport and the settle timer answer eventually). An idle block waits for the host (R172). -/
def nextEvent (s : State) : Option Event :=
  match s.schedule with
  | e :: _ => some e
  | [] =>
    match s.seq with
    | .idle => none
    | .busy _ _ _ => some .transport
    | .settling _ => some .settleDone

/-- R5: one agent moves. -/
def takeEvent (e : Event) (s : State) : Host.Outcome State Fault Refusal :=
  match e with
  | .call w => hostCall w s
  | .issue w => .next (hostIssue w s)
  | .transport => .next (transportAnswers s)
  | .settleDone => .next (settleTimerDone s)
  | .rst => .next (blockReset s)

/-- The head of the schedule is used up. -/
def popEvent (s : State) : State := { s with schedule := s.schedule.tail }

/-- One agent moves, or an idle block waits. -/
def agentStep (s : State) : Host.Outcome State Fault Refusal :=
  match nextEvent s with
  | none => .next s
  | some e => takeEvent e (popEvent s)

/-- R143: a run with a recorded fault satisfies no claim: it stops once no command is in flight any more. -/
def machineStep (s : State) : Host.Outcome State Fault Refusal :=
  match s.seq, s.fault with
  | .idle, some f => .fault f
  | .idle, none => agentStep s
  | .busy _ _ _, _ => agentStep s
  | .settling _, _ => agentStep s

/-- R33: the state in which the host may issue a word: nothing in flight, BUSY clear, no recorded fault. -/
def readyForWord (s : State) : State :=
  { s with status := s.status &&& 0x7F, seq := .idle, fault := none }

/-- The host's next move is a call of this word. -/
def presentWord (w : Word) (s : State) : State := { s with schedule := .call w :: s.schedule }

end Sys2Proof.Machine
end

