-- ==== Sys2Proof/Machine/Step.lean ====
section
/-! DEFINITION. One step of the machine, and how the host places a command word where the next step takes it. -/

namespace Sys2Proof.Machine

/-- One step: one move of one agent (`00_scope.md` R5). -/
def step (s : State) : Host.Outcome State Fault Refusal := machineStep s

/-- The word on the `cmd` port of a block that may accept it, as the host's next move (`10_state.md` R32, R33). A state
that may accept a word already (idle, BUSY clear, no recorded fault) changes in nothing but its schedule. -/
def State.withFetchWord (s : State) (nbits w : Nat) : State :=
  presentWord (BitVec.ofNat 16 (w % 2 ^ min nbits 16)) (readyForWord s)

end Sys2Proof.Machine
end

