-- ==== Sys2Proof/Machine/Assembler.lean ====
section
/-! DEFINITION. The assembler of `30_encoding.md` R80 to R82, on one line of text as a list of characters. It writes a
command word from a mnemonic and an operand; it is a tool beside the block and no meaning uses it. -/

namespace Sys2Proof.Machine

/-- R80: case does not matter: an ASCII letter in lower case. -/
def lowerChar (c : Char) : Char :=
  if 65 ≤ c.toNat && c.toNat ≤ 90 then Char.ofNat (c.toNat + 32) else c

/-- R80: a `;` starts a comment that runs to the end of the line. -/
def dropComment (l : List Char) : List Char := l.takeWhile fun c => c != ';'

/-- Blanks at the end of the line (those before a comment) are no part of the command. -/
def dropTrailingBlanks (l : List Char) : List Char := (l.reverse.dropWhile fun c => c == ' ').reverse

/-- R80: the mnemonic, and the operand after one space if there is one. -/
def splitCommand (l : List Char) : List Char × Option (List Char) :=
  match l with
  | [] => ([], none)
  | ' ' :: rest => ([], some rest)
  | c :: rest =>
    let r := splitCommand rest
    (c :: r.1, r.2)

/-- The value of one digit in lower case. -/
def digitValue (base : Nat) (c : Char) : Option Nat :=
  let v := if 48 ≤ c.toNat && c.toNat ≤ 57 then c.toNat - 48
    else if 97 ≤ c.toNat && c.toNat ≤ 102 then c.toNat - 87
    else base
  if v < base then some v else none

/-- A numeral continued from the value `acc` of its digits so far. -/
def digits (base acc : Nat) (l : List Char) : Option Nat :=
  match l with
  | [] => some acc
  | c :: rest =>
    match digitValue base c with
    | none => none
    | some v => digits base (base * acc + v) rest

/-- R80: a decimal numeral or a `0x` hexadecimal numeral. -/
def numeral (l : List Char) : Option Nat :=
  match l with
  | [] => none
  | ['0', 'x'] => none
  | '0' :: 'x' :: rest => digits 16 0 rest
  | _ => digits 10 0 l

/-- R80: a numeral from 0 to 255 as an operand byte. -/
def numeralByte (l : List Char) : Option Byte :=
  match numeral l with
  | none => none
  | some v => if v ≤ 255 then some (BitVec.ofNat 8 v) else none

/-- R80: an enable operand may also be `true` or `false`. -/
def enableOperand (l : List Char) : Option Byte :=
  match l with
  | ['t', 'r', 'u', 'e'] => some 1
  | ['f', 'a', 'l', 's', 'e'] => some 0
  | _ => numeralByte l

/-- R81: an ALS gain operand may be a name. -/
def alsOperand (l : List Char) : Option Byte :=
  match l with
  | ['a', 'g', 'a', 'i', 'n', '_', '1'] => some 1
  | ['a', 'g', 'a', 'i', 'n', '_', '8'] => some 8
  | ['a', 'g', 'a', 'i', 'n', '_', '1', '6'] => some 16
  | ['a', 'g', 'a', 'i', 'n', '_', '1', '2', '0'] => some 120
  | _ => numeralByte l

/-- R81: a proximity gain operand may be a name. -/
def proxOperand (l : List Char) : Option Byte :=
  match l with
  | ['p', 'g', 'a', 'i', 'n', '_', '1'] => some 1
  | ['p', 'g', 'a', 'i', 'n', '_', '2'] => some 2
  | ['p', 'g', 'a', 'i', 'n', '_', '4'] => some 4
  | ['p', 'g', 'a', 'i', 'n', '_', '8'] => some 8
  | _ => numeralByte l

/-- R80: the word of R70 with this opcode, `ARG` from the operand and `RSV = 0`. -/
def asmWord (op : BitVec 4) (arg : Option Byte) : Option Word :=
  match arg with
  | none => none
  | some a => some (wordOf { arg := a, rsv := 0, op := op })

/-- R82: an enable command without an operand enables. -/
def asmEnable (op : BitVec 4) (operand : Option (List Char)) : Option Word :=
  match operand with
  | none => asmWord op (some 1)
  | some l => asmWord op (enableOperand l)

/-- A command that takes no operand. -/
def asmPlain (op : BitVec 4) (arg : Byte) (operand : Option (List Char)) : Option Word :=
  match operand with
  | none => asmWord op (some arg)
  | some _ => none

/-- A command that needs its operand. -/
def asmGain (op : BitVec 4) (f : List Char → Option Byte) (operand : Option (List Char)) : Option Word :=
  match operand with
  | none => none
  | some l => asmWord op (f l)

/-- R71, R80, R82: the word of a mnemonic in lower case and its operand. -/
def asmCommand (mnemonic : List Char) (operand : Option (List Char)) : Option Word :=
  match mnemonic with
  | ['i', 'n', 'i', 't'] => asmPlain 0x1 0 operand
  | ['p', 'o', 'n'] => asmPlain 0x2 0 operand
  | ['p', 'o', 'f', 'f'] => asmPlain 0x3 0 operand
  | ['a', 'e', 'n'] => asmEnable 0x4 operand
  | ['p', 'e', 'n'] => asmEnable 0x5 operand
  | ['w', 'e', 'n'] => asmEnable 0x6 operand
  | ['a', 'g', 'a', 'i', 'n'] => asmGain 0x7 alsOperand operand
  | ['p', 'g', 'a', 'i', 'n'] => asmGain 0x8 proxOperand operand
  | ['r', 'd', 'a', 'l', 's'] => asmPlain 0x9 0 operand
  | ['r', 'd', 'p', 'r', 'o', 'x'] => asmPlain 0xA 0 operand
  | ['a', 'd', 'i', 's'] => asmPlain 0x4 0 operand
  | ['p', 'd', 'i', 's'] => asmPlain 0x5 0 operand
  | ['w', 'd', 'i', 's'] => asmPlain 0x6 0 operand
  | _ => none

/-- R80: the command word of one line of text; none when the line is no command. -/
def assemble (line : List Char) : Option Word :=
  let c := splitCommand (dropTrailingBlanks ((dropComment line).map lowerChar))
  asmCommand c.1 c.2

/-- The decimal digit of a number below 10. -/
def digitChar (n : Nat) : Char := Char.ofNat (48 + n)

/-- R80: a byte as a three-digit decimal numeral. -/
def byteText (b : Byte) : List Char :=
  [digitChar (b.toNat / 100), digitChar (b.toNat / 10 % 10), digitChar (b.toNat % 10)]

/-- R80: the source line of a command. -/
def sourceText (i : Instr) : List Char :=
  match i with
  | .init => ['I', 'N', 'I', 'T']
  | .pon => ['P', 'O', 'N']
  | .poff => ['P', 'O', 'F', 'F']
  | .aen en => ['A', 'E', 'N', ' '] ++ byteText (enableArg en)
  | .pen en => ['P', 'E', 'N', ' '] ++ byteText (enableArg en)
  | .wen en => ['W', 'E', 'N', ' '] ++ byteText (enableArg en)
  | .again sel => ['A', 'G', 'A', 'I', 'N', ' '] ++ byteText sel
  | .pgain sel => ['P', 'G', 'A', 'I', 'N', ' '] ++ byteText sel
  | .rdals => ['R', 'D', 'A', 'L', 'S']
  | .rdprox => ['R', 'D', 'P', 'R', 'O', 'X']

end Sys2Proof.Machine
end

