-- ==== Sys2Proof/Machine/Reference.lean ====
section
/-! DEFINITION. The reference sensor of `20_memory.md` R66: one deterministic transport oracle that the block's rules
admit, for the test vectors only. No rule of the block uses it. -/

namespace Sys2Proof.Machine

/-- R66: the reference sensor's registers, offsets `0x00` to `0x1F`, and its read pointer. The length of the list is not
fixed here (log entry 23). -/
structure RefSensor where
  reg : List Byte
  ptr : Byte
  deriving DecidableEq, Repr

/-- R66: the byte at an offset. DESIGN CHOICE, log entry 23: R66 has no offset above `0x1F`; past the end of the list this
model's reference sensor answers 0. -/
def RefSensor.at (r : RefSensor) (a : Nat) : Byte := (r.reg[a]?).getD 0

/-- R66: the answer to a transaction, and the sensor after it. A failing transaction changes nothing. DESIGN CHOICE, log
entry 23: a write past the end of the list is dropped (it moves the pointer all the same), the pointer wraps at 8 bits,
and a write of no byte or of more than two, which R66 does not list, is answered and changes nothing. -/
def RefSensor.respond (r : RefSensor) (req : BusReq) (fails : Bool) : Draw × RefSensor :=
  if fails then (.fail, r)
  else
    match req with
    | .write [b0] => (.ok 0 0, { r with ptr := b0 &&& 0x1F })
    | .write [b0, v] => (.ok 0 0, { reg := r.reg.set (b0 &&& 0x1F).toNat v, ptr := b0 &&& 0x1F })
    | .write _ => (.ok 0 0, r)
    | .read n => (.ok (r.at r.ptr.toNat) (r.at (r.ptr.toNat + 1)), { r with ptr := r.ptr + BitVec.ofNat 8 n })

/-- R66: the reference sensor's answers to a command from its transaction `k` on, at most `fuel` of them, and the
sensor at the end. `failAt` marks a failing transaction. -/
def refAnswers (cmd : Instr) (failAt : Option Nat) (fuel k : Nat) (vals : List Word) (r : RefSensor) : List Draw × RefSensor :=
  match fuel with
  | 0 => ([], r)
  | fuel + 1 =>
    match request cmd vals k with
    | none => ([], r)
    | some req =>
      match r.respond req (failAt == some k) with
      | (.fail, r') => ([.fail], r')
      | (.ok b0 b1, r') =>
        let rest := refAnswers cmd failAt fuel (k + 1) (vals ++ readValue req b0 b1) r'
        (.ok b0 b1 :: rest.1, rest.2)

/-- R66: the reference sensor's answers to a whole command, and the sensor at the end. -/
def refCommand (cmd : Instr) (failAt : Option Nat) (r : RefSensor) : List Draw × RefSensor :=
  refAnswers cmd failAt (txnCount cmd) 0 [] r

end Sys2Proof.Machine
end

