-- ==== Sys2Proof/Machine/Sensor.lean ====
section
/-! DEFINITION. Which of the block's writes stand in the sensor (`60_exceptions.md` R144, `44_initialize.md` R132,
`70_reset_and_hazards.md` R171), computed from the transaction trace. The block keeps no copy of a sensor register
(`10_state.md` R30): no meaning reads this view, and it says nothing of what a later read returns (log entry 1) nor of
what a powered-off sensor keeps (log entry 22) or what a read does in the sensor (log entry 24). -/

namespace Sys2Proof.Machine

/-- The byte known to stand at an offset; an unlisted offset is unknown. -/
def Memory.read (m : List Host.Cell) (a : Nat) : Option Byte :=
  match m with
  | [] => none
  | (c, b) :: rest => if c = a then some b else Memory.read rest a

/-- The offset now holds this byte. -/
def Memory.write (m : List Host.Cell) (a : Nat) (v : Byte) : List Host.Cell :=
  match m with
  | [] => [(a, v)]
  | (c, b) :: rest =>
    if a < c then (a, v) :: (c, b) :: rest
    else if a = c then (a, v) :: rest
    else (c, b) :: Memory.write rest a v

/-- The offset is unknown from here on. -/
def Memory.forget (m : List Host.Cell) (a : Nat) : List Host.Cell :=
  match m with
  | [] => []
  | (c, b) :: rest => if c = a then Memory.forget rest a else (c, b) :: Memory.forget rest a

/-- The first offset of a list of cells is above `a`. -/
def Memory.above (a : Nat) (m : List Host.Cell) : Bool :=
  match m with
  | [] => true
  | (c, _) :: _ => decide (a < c)

/-- The canonical form: offsets strictly rising. -/
def Memory.wf (m : List Host.Cell) : Bool :=
  match m with
  | [] => true
  | (c, _) :: rest => Memory.above c rest && Memory.wf rest

/-- R41, R51: the offset and the byte of a register write; none for a select or a read. -/
def writeTarget (req : BusReq) : Option (Nat × Byte) :=
  match req with
  | .read _ => none
  | .write [] => none
  | .write [_] => none
  | .write [b0, v] => some ((b0 &&& 0x1F).toNat, v)
  | .write (_ :: _ :: _ :: _) => none

/-- What the trace says of the sensor so far. -/
structure SensorView where
  /-- The writes that stand. -/
  cells : List Host.Cell
  /-- The last command started is INIT. -/
  inInit : Bool
  /-- The offsets this command has written so far. -/
  written : List Nat
  deriving DecidableEq, Repr

/-- R142, R132: a register write completed. -/
def SensorView.wrote (v : SensorView) (a : Nat) (b : Byte) : SensorView :=
  { v with cells := Memory.write v.cells a b, written := a :: v.written }

/-- Several offsets are unknown from here on. -/
def forgetAll (m : List Host.Cell) (l : List Nat) : List Host.Cell :=
  match l with
  | [] => m
  | a :: rest => forgetAll (Memory.forget m a) rest

/-- R132, R171 and U1: the offsets that a failed or abandoned INIT leaves unspecified beside the one in flight: those
its later steps would have written and no earlier step of it has. -/
def SensorView.initUnspecified (v : SensorView) : List Nat :=
  if v.inInit then (initWrites.map fun w => w.1.offset.toNat).filter fun a => !v.written.contains a else []

/-- R144, R171: a transaction failed or was abandoned: its own write may or may not have taken effect. -/
def SensorView.lost (v : SensorView) (req : BusReq) : SensorView :=
  let own := match writeTarget req with
    | none => []
    | some (a, _) => [a]
  { v with cells := forgetAll v.cells (own ++ v.initUnspecified) }

/-- One trace entry. DESIGN CHOICE, log entry 22: a completed write that clears ENABLE bit 0 (POFF, R92, and INIT's own
ENABLE write) changes only the ENABLE byte of the view. The view lists the writes the block has made and no later
transaction has overwritten or put in doubt; R155 and N10 leave open whether a powered-off sensor keeps them. DESIGN
CHOICE, log entry 24: a register select and a read, completed, failed or abandoned, change no byte of the view by
themselves; R57 and N8 leave open whether a read has a side effect in the sensor. -/
def SensorView.see (v : SensorView) (e : TraceEvent) : SensorView :=
  match e with
  | .started cmd => { v with inInit := decide (cmd = .init), written := [] }
  | .bus _ req (.ok _) =>
    match writeTarget req with
    | none => v
    | some (a, b) => v.wrote a b
  | .bus _ req .fail => v.lost req
  | .abandoned _ req => v.lost req
  | .settleReq => v
  | .settleDone => v

/-- R172: before the block has written anything, every sensor register is unknown. -/
def SensorView.unknown : SensorView := { cells := [], inInit := false, written := [] }

/-- What a trace says of the sensor. -/
def sensorView (t : List TraceEvent) : SensorView := t.foldl SensorView.see SensorView.unknown

/-- R144: the writes of a trace that stand in the sensor, as canonical cells. -/
def standingWrites (t : List TraceEvent) : List Host.Cell := (sensorView t).cells

end Sys2Proof.Machine
end

