-- ==== Sys2Proof/Safety.lean ====
section
/-! DEFINITION. What counts as a safe run, and the terms the claims use: the invariant of the block's state, the
discipline of the transaction trace, and the transactions of each command written out from the spec's tables. -/

namespace Sys2Proof.Safety

open Sys2Proof.Machine

/-- R143: a run in which no host fault is recorded; a run with one satisfies no claim. -/
def Clean (s : State) : Prop := s.fault = none

/-- R21: the legal ALS multipliers. -/
def LegalAlsGain (g : Byte) : Prop := g = 1 ∨ g = 8 ∨ g = 16 ∨ g = 120

/-- R22: the legal proximity multipliers. -/
def LegalProxGain (g : Byte) : Prop := g = 1 ∨ g = 2 ∨ g = 4 ∨ g = 8

/-- R25: STATUS is `0x80` while a command is in flight, and one of the three completion codes otherwise. -/
def StatusAgrees (s : State) : Prop :=
  match s.seq with
  | .idle => s.status = 0x00 ∨ s.status = 0x01 ∨ s.status = 0x02
  | .busy _ _ _ => s.status = 0x80
  | .settling _ => s.status = 0x80

/-- Whether a request is a read. -/
def isRead (req : Option BusReq) : Bool :=
  match req with
  | some (.read _) => true
  | some (.write _) => false
  | none => false

/-- How many of the first `k` transactions of a command are reads. -/
def readsBefore (cmd : Instr) (k : Nat) : Nat := (List.range k).countP fun j => isRead (request cmd [] j)

/-- R27: the position is one of the command's transactions and one value is held for each read before it; only PON and
INIT settle. -/
def SeqLegal (s : State) : Prop :=
  match s.seq with
  | .idle => True
  | .busy cmd k vals => k < txnCount cmd ∧ vals.length = readsBefore cmd k
  | .settling cmd => cmd = .init ∨ cmd = .pon

/-- R26, R118: the largest RESULT. -/
def maxResult : Nat := 834915900

/-- The invariant of the block's own state (R23, R25, R26, R27). -/
structure Inv (s : State) : Prop where
  alsGain : LegalAlsGain s.alsGain
  proxGain : LegalProxGain s.proxGain
  status : StatusAgrees s
  result : s.result.toNat ≤ maxResult
  seq : SeqLegal s

/-- R47, R42: the registers the block writes. -/
def Writable (r : SensorReg) : Prop :=
  r = .enable ∨ r = .atime ∨ r = .ptime ∨ r = .wtime ∨ r = .pers ∨ r = .config ∨ r = .ppulse ∨ r = .control

/-- R56: the registers at which the block issues a 2-byte read. -/
def PairStart (r : SensorReg) : Prop := r = .ch0datal ∨ r = .ch1datal ∨ r = .pdatah

/-- R42: the registers the block reads one byte of. -/
def ByteReadable (r : SensorReg) : Prop := r = .enable ∨ r = .control ∨ r = .atime

/-- R41, R50, R54: the only requests of the block: a select of a register of the map, a write of one data byte to a
register of the map, a read of one or two bytes. -/
def LegalRequest (req : BusReq) : Prop :=
  (∃ r, req = selectReq r ∧ (ByteReadable r ∨ PairStart r)) ∨ (∃ r v, req = writeReq r v ∧ Writable r) ∨
  req = .read 1 ∨ req = .read 2

/-- R52, R53, R54: this trace entry is a completed select that a read of `n` bytes may follow. -/
def SelectFor (n : Nat) (e : TraceEvent) : Prop :=
  ∃ r, e = .bus 0x39 (selectReq r) (.ok []) ∧ ((n = 1 ∧ ByteReadable r) ∨ (n = 2 ∧ PairStart r))

/-- R40, R50: one trace entry is well formed: a transaction goes to the one device, is a legal request, and a
response carries as many bytes as the request reads. -/
def EventLegal (e : TraceEvent) : Prop :=
  match e with
  | .started _ => True
  | .bus dev req rsp => dev = 0x39 ∧ LegalRequest req ∧
      (rsp = .fail ∨ ∃ bytes, rsp = .ok bytes ∧
        ((∃ l, req = .write l ∧ bytes = []) ∨ (∃ n, req = .read n ∧ bytes.length = n)))
  | .abandoned dev req => dev = 0x39 ∧ LegalRequest req
  | .settleReq => True
  | .settleDone => True

/-- How many bytes a trace entry asks to read, if it is a read. -/
def readCount (e : TraceEvent) : Option Nat :=
  match e with
  | .bus _ (.read n) _ => some n
  | .abandoned _ (.read n) => some n
  | .bus _ (.write _) _ => none
  | .abandoned _ (.write _) => none
  | .started _ => none
  | .settleReq => none
  | .settleDone => none

/-- R40, R41, R50, R54, R56: every entry of the trace is legal, and every read stands right after its completed
select. -/
def TraceDisciplined (t : List TraceEvent) : Prop :=
  (∀ e ∈ t, EventLegal e) ∧
  (∀ before e after n, t = before ++ e :: after → readCount e = some n →
    ∃ earlier sel, before = earlier ++ [sel] ∧ SelectFor n sel)

/-- R54: if a read is on `bus_req`, the last trace entry is its completed select. -/
def PendingReadSelected (s : State) : Prop :=
  ∀ n, busReqPort s = some (.read n) → ∃ earlier sel, s.trace = earlier ++ [sel] ∧ SelectFor n sel

/-- The invariant of the bus: a disciplined trace, a selected pending read, and a sequencer at a transaction of its
command. -/
structure BusInv (s : State) : Prop where
  trace : TraceDisciplined s.trace
  pending : PendingReadSelected s
  seq : SeqLegal s

/-- The byte a 1-byte read returns on a draw (no claim uses it on a failing draw). -/
def byteOf (d : Draw) : Byte :=
  match d with
  | .ok b0 _ => b0
  | .fail => 0

/-- The transaction is answered, not failed. -/
def Answered (d : Draw) : Prop := d ≠ .fail

/-- R45, R100: the ALS code of a selector; every unrecognised selector has code 0. -/
def alsCodeOf (sel : Byte) : Byte :=
  if sel = 8 then 0b01 else if sel = 16 then 0b10 else if sel = 120 then 0b11 else 0b00

/-- R46, R101: the proximity code of a selector; every unrecognised selector has code 0. -/
def proxCodeOf (sel : Byte) : Byte :=
  if sel = 2 then 0b01 else if sel = 4 then 0b10 else if sel = 8 then 0b11 else 0b00

/-- The transactions of each command, in order and byte for byte as the spec's tables give them (R91 to R95, R100,
R101, R116, R117, R131); `d` gives the transport's answers to them. -/
def plannedRequests (i : Instr) (d : Nat → Draw) : List BusReq :=
  match i with
  | .init =>
    [.write [0xE1, 0xF8], .write [0xE0, 0x00], .write [0xE1, 0xFF], .write [0xE2, 0xFF], .write [0xE3, 0xFF],
     .write [0xEC, 0x22], .write [0xED, 0x00], .write [0xEE, 0x08], .write [0xEF, 0x2C],
     .write [0x00], .read 1, .write [0xE0, byteOf (d 10) ||| 0x02],
     .write [0x00], .read 1, .write [0xE0, byteOf (d 13) ||| 0x01]]
  | .pon => [.write [0x00], .read 1, .write [0xE0, byteOf (d 1) ||| 0x01]]
  | .poff => [.write [0x00], .read 1, .write [0xE0, byteOf (d 1) &&& 0xFE]]
  | .aen en => [.write [0x00], .read 1, .write [0xE0, if en then byteOf (d 1) ||| 0x02 else byteOf (d 1) &&& 0xFD]]
  | .pen en => [.write [0x00], .read 1, .write [0xE0, if en then byteOf (d 1) ||| 0x04 else byteOf (d 1) &&& 0xFB]]
  | .wen en => [.write [0x00], .read 1, .write [0xE0, if en then byteOf (d 1) ||| 0x08 else byteOf (d 1) &&& 0xF7]]
  | .again sel => [.write [0x0F], .read 1, .write [0xEF, (byteOf (d 1) &&& 0xFC) ||| alsCodeOf sel]]
  | .pgain sel => [.write [0x0F], .read 1, .write [0xEF, (byteOf (d 1) &&& 0xF3) ||| (proxCodeOf sel <<< 2)]]
  | .rdals => [.write [0x14], .read 2, .write [0x16], .read 2, .write [0x01], .read 1]
  | .rdprox => [.write [0x18], .read 2]

/-- The trace entry of a transaction of the one device answered by a draw. -/
def answeredBy (req : BusReq) (d : Draw) : TraceEvent :=
  .bus 0x39 req (match d, req with
    | .fail, _ => .fail
    | .ok _ _, .write _ => .ok []
    | .ok b0 b1, .read n => .ok ([b0, b1].take n))

/-- The trace entries of a list of transactions, the `j`-th answered by draw `j`. -/
def transcript (reqs : List BusReq) (d : Nat → Draw) : List TraceEvent :=
  (List.range reqs.length).zipWith (fun j req => answeredBy req (d j)) reqs

/-- The transcript of a command. -/
def commandTranscript (i : Instr) (d : Nat → Draw) : List TraceEvent :=
  transcript (plannedRequests i d) d

/-- The next `n` transactions are all answered. -/
def AllAnswered (s : State) (n : Nat) : Prop := ∀ j, j < n → Answered (s.drawAt j)

/-- The next transactions are answered up to the `k`-th, which fails. -/
def FirstFailure (s : State) (k : Nat) : Prop := AllAnswered s k ∧ s.drawAt k = .fail

/-- R141: what a command leaves when its transaction `k` fails: the transactions up to the failing one are in the trace,
the code is TFAIL, and nothing else of the block has changed. -/
def failedRun (i : Instr) (s : State) (k : Nat) : State :=
  { s.skipDraws (k + 1) with
    status := 0x01, seq := .idle, trace := s.trace ++ (commandTranscript i s.drawAt).take (k + 1) }

/-- R110 to R115 as the spec writes them, on unbounded integers; Lean's `/` on integers is floor division for the
positive divisors here. -/
def specLux (ch0 ch1 atime gain : Int) : Int :=
  let alsit := (87 * (256 - atime)) / 32
  let iac1 := ch0 - (1862 * ch1) / 1000
  let iac2 := (746 * ch0 - 1291 * ch1).tdiv 1000
  let iac := max (max iac1 iac2) 0
  let lpc := (490 * 52) / alsit
  (iac * lpc) / gain

/-- R53: the 16-bit value of two bytes, low byte first, as a number. -/
def pairValue (b0 b1 : Byte) : Nat := b0.toNat + 256 * b1.toNat

/-- `n` steps, stopping at the first fault or refusal. -/
def runSteps (n : Nat) (s : State) : Host.Outcome State Fault Refusal :=
  match n with
  | 0 => .next s
  | n + 1 =>
    match step s with
    | .next t => runSteps n t
    | .fault r => .fault r
    | .refused r => .refused r

/-- A completed register select, written out. -/
def W1 (b0 : Byte) : TraceEvent := .bus 0x39 (.write [b0]) (.ok [])
/-- A completed register write, written out. -/
def W2 (b0 v : Byte) : TraceEvent := .bus 0x39 (.write [b0, v]) (.ok [])
/-- A completed 1-byte read, written out. -/
def R1 (b : Byte) : TraceEvent := .bus 0x39 (.read 1) (.ok [b])
/-- A completed 2-byte read, written out. -/
def R2 (b0 b1 : Byte) : TraceEvent := .bus 0x39 (.read 2) (.ok [b0, b1])

end Sys2Proof.Safety
end

