-- ==== Sys2Proof/Certificates/Slice0/Obligations.lean ====
section
/-! DEFINITION. The statements for the provers, one `def Obligations.<Name> : Prop` each, listed in OBLIGATIONS.json. A
statement that a state is the next state gives it as a record update of the state before, so that every field not named
is unchanged: that is the frame. `s.drawAt k` is the transport's answer to the `k`-th transaction from `s` (from the
list of answers, or a free value when it has run out); a statement about answers holds for both. -/

open Sys2Proof Sys2Proof.Machine Sys2Proof.Safety

/-! ### Encoding -/

/-- R83: every word of the rule's list decodes to its command. -/
def Obligations.ListedWordsDecode : Prop :=
  decode 0x0001 = .ok .init ∧ decode 0x0002 = .ok .pon ∧ decode 0x0003 = .ok .poff ∧
  decode 0x0004 = .ok (.aen false) ∧ decode 0x0104 = .ok (.aen true) ∧
  decode 0x0005 = .ok (.pen false) ∧ decode 0x0105 = .ok (.pen true) ∧
  decode 0x0006 = .ok (.wen false) ∧ decode 0x0106 = .ok (.wen true) ∧
  decode 0x0009 = .ok .rdals ∧ decode 0x000A = .ok .rdprox ∧
  decode 0x0107 = .ok (.again 1) ∧ decode 0x0807 = .ok (.again 8) ∧
  decode 0x1007 = .ok (.again 16) ∧ decode 0x7807 = .ok (.again 120) ∧
  decode 0x0108 = .ok (.pgain 1) ∧ decode 0x0208 = .ok (.pgain 2) ∧
  decode 0x0408 = .ok (.pgain 4) ∧ decode 0x0808 = .ok (.pgain 8)

/-- R70, R71, R72, R78: each legal word stands for one command and each command, with every operand, has one word. -/
def Obligations.DecodeAndEncodeAgree : Prop :=
  ∀ (w : Word) (i : Instr), decode w = .ok i ↔ w = encode i

/-- R73's four conditions: a word is refused by the decoder exactly when one of them holds. -/
def Obligations.WordIsIllegalExactlyWhen : Prop :=
  ∀ w : Word,
    let op := (w.extractLsb' 0 4).toNat
    let rsv := (w.extractLsb' 4 4).toNat
    let arg := (w.extractLsb' 8 8).toNat
    (∃ e, decode w = .error e) ↔
      (op = 0 ∨ 0xB ≤ op) ∨ rsv ≠ 0 ∨
      ((op = 1 ∨ op = 2 ∨ op = 3 ∨ op = 9 ∨ op = 0xA) ∧ arg ≠ 0) ∨
      ((op = 4 ∨ op = 5 ∨ op = 6) ∧ arg / 2 ≠ 0)

/-- R73: of the 65,536 words, 523 are legal and 65,013 are illegal. -/
def Obligations.LegalWordsAreCounted : Prop :=
  Nat.card { w : Word // ∃ i, decode w = .ok i } = 523 ∧
  Nat.card { w : Word // ∃ e, decode w = .error e } = 65013

/-- R80: the assembler gives the source line of every command, with every operand, its own command word. The three-digit
spelling of the numeral is the model's `sourceText`. -/
def Obligations.AssemblerWritesTheCommandWord : Prop :=
  ∀ i : Instr, assemble (sourceText i) = some (encode i)

/-- R82: the pseudo-instructions and their words. -/
def Obligations.PseudoInstructionWords : Prop :=
  assemble ['A', 'E', 'N'] = some 0x0104 ∧ assemble ['P', 'E', 'N'] = some 0x0105 ∧
  assemble ['W', 'E', 'N'] = some 0x0106 ∧ assemble ['A', 'D', 'I', 'S'] = some 0x0004 ∧
  assemble ['P', 'D', 'I', 'S'] = some 0x0005 ∧ assemble ['W', 'D', 'I', 'S'] = some 0x0006

/-! ### Issue, decode and completion -/

/-- R33, R78: an idle block whose host calls a word that decodes to `i` runs `i`. What the step adds around `exec`: the
host's move is used up, STATUS becomes `0x80`, and the trace says that `i` started. -/
def Obligations.StepRunsTheDecodedCommand : Prop :=
  ∀ (s : State) (w : Word) (i : Instr) (rest : List Event),
    s.seq = .idle → busyBit s.status = false → s.fault = none → s.schedule = .call w :: rest → decode w = .ok i →
    step s = exec i { s with schedule := rest, status := 0x80, trace := s.trace ++ [.started i] }

/-- The word that `withFetchWord` places is the one the next step runs, from every state that may accept a word. -/
def Obligations.PlacedWordIsRunNext : Prop :=
  ∀ (s : State) (i : Instr),
    s.seq = .idle → busyBit s.status = false → s.fault = none →
    step (s.withFetchWord 16 (encode i).toNat) =
      exec i { s with status := 0x80, trace := s.trace ++ [.started i] } ∧
    (s.withFetchWord 16 (encode i).toNat).schedule = .call (encode i) :: s.schedule ∧
    { s.withFetchWord 16 (encode i).toNat with schedule := s.schedule } = s

/-- R142: a word that decodes to no command, called or issued, completes with ILLEGAL: no transaction, nothing written
but STATUS (the host's move is used up). The rule never applies to a gain selector. -/
def Obligations.IllegalWordWritesOnlyStatus : Prop :=
  (∀ (s : State) (w : Word) (rest : List Event) (ev : Event),
    s.seq = .idle → busyBit s.status = false → s.fault = none → (ev = .call w ∨ ev = .issue w) →
    s.schedule = ev :: rest → (∃ e, decode w = .error e) →
    step s = .next { s with schedule := rest, status := 0x02 }) ∧
  (∀ sel : Byte, decode (sel ++ (0x07 : Byte)) = .ok (.again sel) ∧ decode (sel ++ (0x08 : Byte)) = .ok (.pgain sel))

/-- R33, R27: a word issued without waiting is accepted: STATUS is `0x80`, the command is in flight at its transaction 0,
and that transaction is on `bus_req`. -/
def Obligations.IssuedCommandIsInFlight : Prop :=
  ∀ (s : State) (w : Word) (i : Instr) (rest : List Event),
    s.seq = .idle → busyBit s.status = false → s.fault = none → s.schedule = .issue w :: rest → decode w = .ok i →
    ∃ t, step s = .next t ∧
      t = { s with schedule := rest, status := 0x80, trace := s.trace ++ [.started i], seq := .busy i 0 [] } ∧
      busReqPort t = (plannedRequests i s.drawAt)[0]?

/-- R143: a word issued while BUSY is recorded and not accepted, and the command in flight is unchanged. -/
def Obligations.IssueWhileBusyIsRecorded : Prop :=
  ∀ (s : State) (w : Word) (rest : List Event) (ev : Event),
    s.seq ≠ .idle → busyBit s.status = true → (ev = .call w ∨ ev = .issue w) → s.schedule = ev :: rest →
    step s = .next { s with schedule := rest, fault := some .issueWhileBusy }

/-- R143: a recorded fault is kept by every step, and (the model's choice, log entry 4) the run stops with it as soon as
no command is in flight. -/
def Obligations.RecordedFaultIsKeptAndStopsTheRun : Prop :=
  (∀ s t f, step s = .next t → s.fault = some f → t.fault = some f) ∧
  (∀ s f, s.seq = .idle → s.fault = some f → step s = .fault f)

/-- R172: an idle block with no move pending waits. -/
def Obligations.IdleBlockWaitsForTheHost : Prop :=
  ∀ s : State, s.seq = .idle → s.fault = none → s.schedule = [] → step s = .next s

/-! ### Reset -/

/-- R170: the state after reset. -/
def Obligations.ResetValues : Prop :=
  State.reset.alsGain = 1 ∧ State.reset.proxGain = 8 ∧ State.reset.status = 0x00 ∧ State.reset.result = 0x00000000 ∧
  State.reset.seq = .idle ∧ State.reset.trace = [] ∧ State.reset.fault = none

/-- R170, R171: the `rst` event sets the block's registers and abandons the command in flight, without a completion code.
A transaction in flight is left unanswered (marked abandoned in the trace); no other entry is added, and a recorded host
fault is kept. -/
def Obligations.ResetAbandonsTheCommand : Prop :=
  ∀ (s : State) (rest : List Event),
    (s.seq = .idle → s.fault = none) → s.schedule = .rst :: rest →
    step s = .next { s with
      schedule := rest, alsGain := 1, proxGain := 8, status := 0x00, result := 0x00000000, seq := .idle,
      trace := s.trace ++ (match busReqPort s with
        | some req => [TraceEvent.abandoned 0x39 req]
        | none => []) }

/-! ### The micro-operations -/

/-- R51: `MemWrite(a, 1, v)`. -/
def Obligations.MemWriteSendsFlaggedOffsetAndValue : Prop :=
  ∀ (r : SensorReg) (v : Byte) (s : State),
    (∀ a b, s.drawAt 0 = .ok a b →
      memWrite r v s = .done () { s.skipDraws 1 with trace := s.trace ++ [W2 (r.offset ||| 0xE0) v] }) ∧
    (s.drawAt 0 = .fail →
      memWrite r v s = .failed
        { s.skipDraws 1 with trace := s.trace ++ [.bus 0x39 (.write [r.offset ||| 0xE0, v]) .fail] })

/-- R52: `MemRead(a, 1)`; if the select fails, the read is not issued. -/
def Obligations.MemReadByteSelectsThenReads : Prop :=
  ∀ (r : SensorReg) (s : State),
    (∀ a b e x, s.drawAt 0 = .ok a b → s.drawAt 1 = .ok e x →
      memRead1 r s = .done e { s.skipDraws 2 with trace := s.trace ++ [W1 r.offset, R1 e] }) ∧
    (∀ a b, s.drawAt 0 = .ok a b → s.drawAt 1 = .fail →
      memRead1 r s = .failed { s.skipDraws 2 with trace := s.trace ++ [W1 r.offset, .bus 0x39 (.read 1) .fail] }) ∧
    (s.drawAt 0 = .fail →
      memRead1 r s = .failed { s.skipDraws 1 with trace := s.trace ++ [.bus 0x39 (.write [r.offset]) .fail] })

/-- R53, R55: `MemRead(a, 2)`; the first byte on the bus is the low byte. -/
def Obligations.MemReadPairIsLittleEndian : Prop :=
  ∀ (r : SensorReg) (s : State),
    (∀ a b lo hi, s.drawAt 0 = .ok a b → s.drawAt 1 = .ok lo hi →
      ∃ v : Word, v.toNat = lo.toNat + 256 * hi.toNat ∧
        memRead2 r s = .done v { s.skipDraws 2 with trace := s.trace ++ [W1 r.offset, R2 lo hi] }) ∧
    (∀ a b, s.drawAt 0 = .ok a b → s.drawAt 1 = .fail →
      memRead2 r s = .failed { s.skipDraws 2 with trace := s.trace ++ [W1 r.offset, .bus 0x39 (.read 2) .fail] }) ∧
    (s.drawAt 0 = .fail →
      memRead2 r s = .failed { s.skipDraws 1 with trace := s.trace ++ [.bus 0x39 (.write [r.offset]) .fail] })

/-- R42: the register map, name by name. -/
def Obligations.RegisterMapOffsets : Prop :=
  SensorReg.enable.offset = 0x00 ∧ SensorReg.atime.offset = 0x01 ∧ SensorReg.ptime.offset = 0x02 ∧
  SensorReg.wtime.offset = 0x03 ∧ SensorReg.pers.offset = 0x0C ∧ SensorReg.config.offset = 0x0D ∧
  SensorReg.ppulse.offset = 0x0E ∧ SensorReg.control.offset = 0x0F ∧ SensorReg.ch0datal.offset = 0x14 ∧
  SensorReg.ch0datah.offset = 0x15 ∧ SensorReg.ch1datal.offset = 0x16 ∧ SensorReg.ch1datah.offset = 0x17 ∧
  SensorReg.pdatah.offset = 0x18 ∧ SensorReg.pdatal.offset = 0x19 ∧ SensorReg.poffset.offset = 0x1E

/-! ### The commands as one step: their own effect, whole -/

/-- R91: PON sets bit 0 of ENABLE, then settles once; a failed transaction ends it with no settle wait. -/
def Obligations.PonSetsPowerBitThenSettles : Prop :=
  encode .pon = 0x0002 ∧
  (∀ (s : State) (a b e x c d : Byte),
    s.drawAt 0 = .ok a b → s.drawAt 1 = .ok e x → s.drawAt 2 = .ok c d →
    exec .pon s = .next { s.skipDraws 3 with
      status := 0x00, seq := .idle,
      trace := s.trace ++ [W1 0x00, R1 e, W2 0xE0 (e ||| 0x01), .settleReq, .settleDone] }) ∧
  (∀ (s : State) (k : Nat), k < 3 → FirstFailure s k → exec .pon s = .next (failedRun .pon s k))

/-- R92: POFF clears bit 0 of ENABLE, with no settle wait. -/
def Obligations.PoffClearsPowerBit : Prop :=
  encode .poff = 0x0003 ∧
  (∀ (s : State) (a b e x c d : Byte),
    s.drawAt 0 = .ok a b → s.drawAt 1 = .ok e x → s.drawAt 2 = .ok c d →
    exec .poff s = .next { s.skipDraws 3 with
      status := 0x00, seq := .idle, trace := s.trace ++ [W1 0x00, R1 e, W2 0xE0 (e &&& 0xFE)] }) ∧
  (∀ (s : State) (k : Nat), k < 3 → FirstFailure s k → exec .poff s = .next (failedRun .poff s k))

/-- R93: AEN sets or clears bit 1 of ENABLE, with no settle wait. -/
def Obligations.AenUpdatesAlsEnableBit : Prop :=
  encode (.aen false) = 0x0004 ∧ encode (.aen true) = 0x0104 ∧
  (∀ (en : Bool) (s : State) (a b e x c d : Byte),
    s.drawAt 0 = .ok a b → s.drawAt 1 = .ok e x → s.drawAt 2 = .ok c d →
    exec (.aen en) s = .next { s.skipDraws 3 with
      status := 0x00, seq := .idle,
      trace := s.trace ++ [W1 0x00, R1 e, W2 0xE0 (if en then e ||| 0x02 else e &&& 0xFD)] }) ∧
  (∀ (en : Bool) (s : State) (k : Nat), k < 3 → FirstFailure s k → exec (.aen en) s = .next (failedRun (.aen en) s k))

/-- R94: PEN sets or clears bit 2 of ENABLE, with no settle wait. -/
def Obligations.PenUpdatesProximityEnableBit : Prop :=
  encode (.pen false) = 0x0005 ∧ encode (.pen true) = 0x0105 ∧
  (∀ (en : Bool) (s : State) (a b e x c d : Byte),
    s.drawAt 0 = .ok a b → s.drawAt 1 = .ok e x → s.drawAt 2 = .ok c d →
    exec (.pen en) s = .next { s.skipDraws 3 with
      status := 0x00, seq := .idle,
      trace := s.trace ++ [W1 0x00, R1 e, W2 0xE0 (if en then e ||| 0x04 else e &&& 0xFB)] }) ∧
  (∀ (en : Bool) (s : State) (k : Nat), k < 3 → FirstFailure s k → exec (.pen en) s = .next (failedRun (.pen en) s k))

/-- R95: WEN sets or clears bit 3 of ENABLE, with no settle wait. -/
def Obligations.WenUpdatesWaitEnableBit : Prop :=
  encode (.wen false) = 0x0006 ∧ encode (.wen true) = 0x0106 ∧
  (∀ (en : Bool) (s : State) (a b e x c d : Byte),
    s.drawAt 0 = .ok a b → s.drawAt 1 = .ok e x → s.drawAt 2 = .ok c d →
    exec (.wen en) s = .next { s.skipDraws 3 with
      status := 0x00, seq := .idle,
      trace := s.trace ++ [W1 0x00, R1 e, W2 0xE0 (if en then e ||| 0x08 else e &&& 0xF7)] }) ∧
  (∀ (en : Bool) (s : State) (k : Nat), k < 3 → FirstFailure s k → exec (.wen en) s = .next (failedRun (.wen en) s k))

/-- R100: AGAIN merges the selector's code into CONTROL bits 1:0 and records the multiplier after the write; an
unrecognised selector is 1x; a failed transaction leaves ALS_GAIN unchanged. -/
def Obligations.AgainMergesCodeAndRecordsMultiplier : Prop :=
  (∀ sel : Byte, encode (.again sel) = sel ++ (0x07 : Byte)) ∧
  (∀ (sel : Byte) (s : State) (a b c x p q code m : Byte),
    ((sel = 1 ∧ code = 0 ∧ m = 1) ∨ (sel = 8 ∧ code = 1 ∧ m = 8) ∨ (sel = 16 ∧ code = 2 ∧ m = 16) ∨
      (sel = 120 ∧ code = 3 ∧ m = 120) ∨
      (sel ≠ 1 ∧ sel ≠ 8 ∧ sel ≠ 16 ∧ sel ≠ 120 ∧ code = 0 ∧ m = 1)) →
    s.drawAt 0 = .ok a b → s.drawAt 1 = .ok c x → s.drawAt 2 = .ok p q →
    exec (.again sel) s = .next { s.skipDraws 3 with
      status := 0x00, seq := .idle, alsGain := m,
      trace := s.trace ++ [W1 0x0F, R1 c, W2 0xEF ((c &&& 0xFC) ||| code)] }) ∧
  (∀ (sel : Byte) (s : State) (k : Nat), k < 3 → FirstFailure s k →
    exec (.again sel) s = .next (failedRun (.again sel) s k))

/-- R101: PGAIN merges the selector's code into CONTROL bits 3:2 under the keep mask `0xF3` and records the multiplier
after the write; an unrecognised selector is 1x; a failed transaction leaves PROX_GAIN unchanged. -/
def Obligations.PgainMergesCodeAndRecordsMultiplier : Prop :=
  (∀ sel : Byte, encode (.pgain sel) = sel ++ (0x08 : Byte)) ∧
  (∀ (sel : Byte) (s : State) (a b c x p q code m : Byte),
    ((sel = 1 ∧ code = 0 ∧ m = 1) ∨ (sel = 2 ∧ code = 1 ∧ m = 2) ∨ (sel = 4 ∧ code = 2 ∧ m = 4) ∨
      (sel = 8 ∧ code = 3 ∧ m = 8) ∨
      (sel ≠ 1 ∧ sel ≠ 2 ∧ sel ≠ 4 ∧ sel ≠ 8 ∧ code = 0 ∧ m = 1)) →
    s.drawAt 0 = .ok a b → s.drawAt 1 = .ok c x → s.drawAt 2 = .ok p q →
    exec (.pgain sel) s = .next { s.skipDraws 3 with
      status := 0x00, seq := .idle, proxGain := m,
      trace := s.trace ++ [W1 0x0F, R1 c, W2 0xEF ((c &&& 0xF3) ||| (code <<< 2))] }) ∧
  (∀ (sel : Byte) (s : State) (k : Nat), k < 3 → FirstFailure s k →
    exec (.pgain sel) s = .next (failedRun (.pgain sel) s k))

/-- R116: RDALS reads channel 0, channel 1 and ATIME, and RESULT is the value of R110 to R115 for the recorded gain
(which R23 keeps from being 0); two dark channels give 0; a failed transaction leaves RESULT unchanged. -/
def Obligations.RdalsComputesTheAlsValue : Prop :=
  encode .rdals = 0x0009 ∧
  (∀ (s : State) (a0 b0 a2 b2 a4 b4 lo0 hi0 lo1 hi1 atime x : Byte),
    s.alsGain ≠ 0 →
    s.drawAt 0 = .ok a0 b0 → s.drawAt 1 = .ok lo0 hi0 → s.drawAt 2 = .ok a2 b2 → s.drawAt 3 = .ok lo1 hi1 →
    s.drawAt 4 = .ok a4 b4 → s.drawAt 5 = .ok atime x →
    exec .rdals s = .next { s.skipDraws 6 with
      status := 0x00, seq := .idle,
      result := BitVec.ofInt 32 (specLux (pairValue lo0 hi0) (pairValue lo1 hi1) atime.toNat s.alsGain.toNat),
      trace := s.trace ++ [W1 0x14, R2 lo0 hi0, W1 0x16, R2 lo1 hi1, W1 0x01, R1 atime] }) ∧
  (∀ atime gain : Int, specLux 0 0 atime gain = 0) ∧
  (∀ (s : State) (k : Nat), k < 6 → FirstFailure s k → exec .rdals s = .next (failedRun .rdals s k))

/-- R117: RDPROX reads the proximity pair and RESULT is the truncated quotient by the recorded gain (which R23 keeps from
being 0); a failed transaction leaves RESULT unchanged. -/
def Obligations.RdproxDividesByTheRecordedGain : Prop :=
  encode .rdprox = 0x000A ∧
  (∀ (s : State) (a b lo hi : Byte),
    s.proxGain ≠ 0 → s.drawAt 0 = .ok a b → s.drawAt 1 = .ok lo hi →
    exec .rdprox s = .next { s.skipDraws 2 with
      status := 0x00, seq := .idle, result := BitVec.ofNat 32 (pairValue lo hi / s.proxGain.toNat),
      trace := s.trace ++ [W1 0x18, R2 lo hi] }) ∧
  (∀ (s : State) (k : Nat), k < 2 → FirstFailure s k → exec .rdprox s = .next (failedRun .rdprox s k))

/-- R131, R134: INIT issues exactly the fifteen transactions of the rule's table, in its order, and then the settle wait,
once. R133: the gains are unchanged (no field but those named changes). -/
def Obligations.InitIssuesItsFifteenTransactions : Prop :=
  ∀ (s : State) (e1 x1 e2 x2 : Byte),
    AllAnswered s 15 → s.drawAt 10 = .ok e1 x1 → s.drawAt 13 = .ok e2 x2 →
    exec .init s = .next { s.skipDraws 15 with
      status := 0x00, seq := .idle,
      trace := s.trace ++
        [W2 0xE1 0xF8, W2 0xE0 0x00, W2 0xE1 0xFF, W2 0xE2 0xFF, W2 0xE3 0xFF, W2 0xEC 0x22, W2 0xED 0x00,
         W2 0xEE 0x08, W2 0xEF 0x2C, W1 0x00, R1 e1, W2 0xE0 (e1 ||| 0x02), W1 0x00, R1 e2, W2 0xE0 (e2 ||| 0x01),
         .settleReq, .settleDone] }

/-- R141: whatever the command, the first transaction that fails ends it with TFAIL: the transactions up to it are in the
trace exactly as the spec's tables list them, no later transaction and no settle is requested, and ALS_GAIN, PROX_GAIN and
RESULT are unchanged. -/
def Obligations.TransportFailureEndsTheCommand : Prop :=
  ∀ (i : Instr) (s : State) (k : Nat),
    k < (plannedRequests i s.drawAt).length → FirstFailure s k → exec i s = .next (failedRun i s k)

/-- R140: every command, from every state and whatever the transport answers, completes: SEQ is IDLE, and STATUS is OK or
TFAIL, OK exactly when every transaction was answered. -/
def Obligations.EveryCommandCompletes : Prop :=
  ∀ (i : Instr) (s : State), ∃ t, exec i s = .next t ∧ t.seq = .idle ∧
    (t.status = 0x00 ∨ t.status = 0x01) ∧
    (t.status = 0x00 ↔ AllAnswered s (plannedRequests i s.drawAt).length)

/-! ### Laws of the ENABLE and CONTROL updates -/

/-- R97: a control command that completes with OK writes an ENABLE byte in which every bit but its own is the byte read,
and its own bit is the one asked for. -/
def Obligations.ControlCommandOwnsOneBit : Prop :=
  ∀ (i : Instr) (mask target : Byte) (s t : State) (e x : Byte),
    ((i = .pon ∧ mask = 0x01 ∧ target = 0x01) ∨ (i = .poff ∧ mask = 0x01 ∧ target = 0) ∨
      (i = .aen true ∧ mask = 0x02 ∧ target = 0x02) ∨ (i = .aen false ∧ mask = 0x02 ∧ target = 0) ∨
      (i = .pen true ∧ mask = 0x04 ∧ target = 0x04) ∨ (i = .pen false ∧ mask = 0x04 ∧ target = 0) ∨
      (i = .wen true ∧ mask = 0x08 ∧ target = 0x08) ∨ (i = .wen false ∧ mask = 0x08 ∧ target = 0)) →
    s.drawAt 1 = .ok e x → exec i s = .next t → t.status = 0x00 →
    ∃ (n : Byte) (settle : List TraceEvent),
      t.trace = s.trace ++ [W1 0x00, R1 e, W2 0xE0 n] ++ settle ∧
      (settle = [] ∨ settle = [.settleReq, .settleDone]) ∧
      n &&& ~~~mask = e &&& ~~~mask ∧ n &&& mask = target

/-- R96: a control command run again on the byte that it wrote writes the same byte again. PON's settle wait runs again. -/
def Obligations.ControlCommandsAreIdempotent : Prop :=
  ∀ (i : Instr) (s t u : State) (e n x y : Byte),
    (i = .pon ∨ i = .poff ∨ (∃ en, i = .aen en) ∨ (∃ en, i = .pen en) ∨ (∃ en, i = .wen en)) →
    s.drawAt 1 = .ok e x → exec i s = .next t → t.status = 0x00 → W2 0xE0 n ∈ t.trace.drop s.trace.length →
    t.drawAt 1 = .ok n y → exec i t = .next u → u.status = 0x00 →
    ∃ settle : List TraceEvent, u.trace = t.trace ++ [W1 0x00, R1 n, W2 0xE0 n] ++ settle ∧
      (i = .pon → settle = [.settleReq, .settleDone]) ∧ (i ≠ .pon → settle = [])

/-- R102: a completed AGAIN writes its code in bits 1:0 and the byte read in bits 7:2; a completed PGAIN writes its code in
bits 3:2 and the byte read in bits 1:0 (and, under the decided keep mask, in bits 7:4). -/
def Obligations.GainCommandsMergeTheirField : Prop :=
  ∀ (sel : Byte) (s t : State) (c x : Byte),
    s.drawAt 1 = .ok c x →
    (exec (.again sel) s = .next t → t.status = 0x00 →
      ∃ v : Byte, t.trace = s.trace ++ [W1 0x0F, R1 c, W2 0xEF v] ∧
        v.toNat % 4 = (alsCodeOf sel).toNat ∧ v.toNat / 4 = c.toNat / 4) ∧
    (exec (.pgain sel) s = .next t → t.status = 0x00 →
      ∃ v : Byte, t.trace = s.trace ++ [W1 0x0F, R1 c, W2 0xEF v] ∧
        v.toNat / 4 % 4 = (proxCodeOf sel).toNat ∧ v.toNat % 4 = c.toNat % 4 ∧ v.toNat / 16 = c.toNat / 16)

/-- R103: after any gain command that set the gain, INIT leaves the gain registers as they are while it writes the codes of
`0x2C` to CONTROL: the block's gain and the sensor's code disagree, for instance after `AGAIN 16`. The view of
standing writes is the model's (log entries 1, 22 and 24). -/
def Obligations.InitLeavesTheGainStale : Prop :=
  ∀ (s t u : State),
    exec (.again 16) s = .next t → t.status = 0x00 → exec .init t = .next u → u.status = 0x00 →
    u.alsGain = 16 ∧ u.proxGain = s.proxGain ∧ Memory.read (standingWrites u.trace) 0x0F = some 0x2C

/-! ### The arithmetic -/

/-- R118: the ranges of every intermediate, each bound reached, and RDPROX's. -/
def Obligations.ConversionRanges : Prop :=
  (∀ (ch0 ch1 : Word) (at' : Byte),
    1862 * ch1.toNat ≤ 122026170 ∧
    (-122026 ≤ iac1 ch0 ch1 ∧ iac1 ch0 ch1 ≤ 65535) ∧
    (-84605685 ≤ iac2Dividend ch0 ch1 ∧ iac2Dividend ch0 ch1 ≤ 48889110) ∧
    (-84605 ≤ iac2 ch0 ch1 ∧ iac2 ch0 ch1 ≤ 48889) ∧
    iac ch0 ch1 ≤ 65535 ∧ (2 ≤ alsit at' ∧ alsit at' ≤ 696) ∧ (36 ≤ lpc at' ∧ lpc at' ≤ 12740) ∧
    iac ch0 ch1 * lpc at' ≤ 834915900 ∧
    (∀ g, LegalAlsGain g → lux ch0 ch1 at' g ≤ 834915900) ∧
    (∀ g, LegalProxGain g → (proxResult ch0 g).toNat ≤ 65535)) ∧
  (iac1 0 0xFFFF = -122026 ∧ iac1 0xFFFF 0 = 65535 ∧ iac2Dividend 0 0xFFFF = -84605685 ∧
    iac2Dividend 0xFFFF 0 = 48889110 ∧ iac2 0 0xFFFF = -84605 ∧ iac2 0xFFFF 0 = 48889 ∧ iac 0 0 = 0 ∧
    iac 0xFFFF 0 = 65535 ∧ alsit 0xFF = 2 ∧ alsit 0 = 696 ∧ lpc 0 = 36 ∧ lpc 0xFF = 12740 ∧
    lux 0xFFFF 0 0xFF 1 = 834915900 ∧ proxResult 0xFFFF 1 = 65535)

/-- R113: the count is the larger of the two terms clamped at 0, and never above channel 0. -/
def Obligations.InfraredAdjustedCountIsClamped : Prop :=
  ∀ ch0 ch1 : Word,
    (iac ch0 ch1 : Int) = max (max (iac1 ch0 ch1) (iac2 ch0 ch1)) 0 ∧ iac ch0 ch1 ≤ ch0.toNat

/-- R119: rounding the second term down instead of toward zero changes the term by 1 on a negative dividend that is not a
multiple of 1000 and nowhere else, and never changes the count. -/
def Obligations.RoundingDirectionIsAbsorbedByTheClamp : Prop :=
  ∀ ch0 ch1 : Word,
    max (max (iac1 ch0 ch1) (iac2Dividend ch0 ch1 / 1000)) 0 = (iac ch0 ch1 : Int) ∧
    (iac2Dividend ch0 ch1 < 0 → ¬ (1000 ∣ iac2Dividend ch0 ch1) → iac2 ch0 ch1 = iac2Dividend ch0 ch1 / 1000 + 1) ∧
    (0 ≤ iac2Dividend ch0 ch1 ∨ 1000 ∣ iac2Dividend ch0 ch1 → iac2 ch0 ch1 = iac2Dividend ch0 ch1 / 1000)

/-- R118: a datapath of signed 32-bit words with wrap-around arithmetic computes both results exactly. -/
def Obligations.SignedWordDatapathIsExact : Prop :=
  (∀ (ch0 ch1 : Word) (at' g : Byte), LegalAlsGain g → lux32 ch0 ch1 at' g = alsResult ch0 ch1 at' g) ∧
  (∀ (p : Word) (g : Byte), LegalProxGain g → prox32 p g = proxResult p g)

/-! ### One step per transaction -/

/-- R27, R50: an answered transaction that is not the last of its command: it is in the trace, its value is held, and the
next transaction goes out; nothing else changes, STATUS stays as it is. -/
def Obligations.AnsweredTransactionAdvances : Prop :=
  ∀ (s : State) (cmd : Instr) (k : Nat) (vals : List Word) (req : BusReq) (b0 b1 : Byte) (rest : List Event),
    s.seq = .busy cmd k vals → busReqPort s = some req → s.schedule = .transport :: rest → s.drawAt 0 = .ok b0 b1 →
    k + 1 < txnCount cmd →
    step s = .next { s.skipDraws 1 with
      schedule := rest, trace := s.trace ++ [answeredBy req (.ok b0 b1)],
      seq := .busy cmd (k + 1) (vals ++ (match req with
        | .write _ => []
        | .read n => [if n = 1 then b0.setWidth 16 else BitVec.ofNat 16 (pairValue b0 b1)])) }

/-- R141 for a command in flight: a failed transaction completes it with TFAIL. -/
def Obligations.FailedTransactionInFlightCompletes : Prop :=
  ∀ (s : State) (cmd : Instr) (k : Nat) (vals : List Word) (req : BusReq) (rest : List Event),
    s.seq = .busy cmd k vals → busReqPort s = some req → s.schedule = .transport :: rest → s.drawAt 0 = .fail →
    step s = .next { s.skipDraws 1 with
      schedule := rest, trace := s.trace ++ [answeredBy req .fail], status := 0x01, seq := .idle }

/-- R150: the timer's signal completes the command with OK, `settle_req` is on its port and no transaction is on
`bus_req`. The model's choice (log entry 9, DESIGN CHOICE): a move of the transport, which nothing asked for during the
wait, changes only the schedule. -/
def Obligations.SettleWaitEndsWithTheTimer : Prop :=
  ∀ (s : State) (cmd : Instr) (rest : List Event),
    s.seq = .settling cmd →
    (s.schedule = .transport :: rest → step s = .next { s with schedule := rest }) ∧
    (s.schedule = .settleDone :: rest →
      step s = .next { s with schedule := rest, trace := s.trace ++ [.settleDone], status := 0x00, seq := .idle }) ∧
    settleReqPort s = true ∧ busReqPort s = none

/-- R27, D1: a command run as one step per transaction ends, within seventeen steps, in the very state (transactions,
registers, answers used) in which the command run as one atomic step ends, whatever the transport answers.
The model's choice (log entry 6): once the schedule is empty, the agent the block waits for moves. -/
def Obligations.AtomicStepEqualsTransactionSteps : Prop :=
  ∀ (s : State) (w : Word) (n : Nat),
    s.seq = .idle → busyBit s.status = false → s.fault = none → 17 ≤ n →
    runSteps n { s with schedule := [.issue w] } = step { s with schedule := [.call w] }

/-! ### Invariants and whole-machine rules -/

/-- R23, R25, R26, R27: the invariant of the block's state holds at reset. -/
def Obligations.ResetMeetsTheInvariant : Prop := Inv State.reset

/-- R23, R25, R26, R27: every step keeps it: legal gains, STATUS in agreement with SEQ, a bounded RESULT, a legal
sequencer position. -/
def Obligations.StepKeepsTheInvariant : Prop :=
  ∀ s t : State, Inv s → step s = .next t → Inv t

/-- R54: the invariant of the bus holds at reset. -/
def Obligations.ResetMeetsTheBusDiscipline : Prop := BusInv State.reset

/-- R40, R41, R50, R54, R56: every step keeps the discipline of the bus: one device, offsets of the map, no write of more
than one data byte, and no read without its completed select right before it. -/
def Obligations.StepKeepsTheBusDiscipline : Prop :=
  ∀ s t : State, BusInv s → step s = .next t → BusInv t

/-- R21, R22, R26: of the commands, only AGAIN writes ALS_GAIN, only PGAIN writes PROX_GAIN, only RDALS and RDPROX write
RESULT, each only on OK; no command touches the host's schedule or the recorded fault, and the trace only grows. -/
def Obligations.OnlyTheOwnersWriteARegister : Prop :=
  ∀ (i : Instr) (s t : State), exec i s = .next t →
    (t.alsGain ≠ s.alsGain → t.status = 0x00 ∧ ∃ sel, i = .again sel) ∧
    (t.proxGain ≠ s.proxGain → t.status = 0x00 ∧ ∃ sel, i = .pgain sel) ∧
    (t.result ≠ s.result → t.status = 0x00 ∧ (i = .rdals ∨ i = .rdprox)) ∧
    t.schedule = s.schedule ∧ t.fault = s.fault ∧ s.trace <+: t.trace

/-- R21 over whole steps: ALS_GAIN changes only at a reset, at a called AGAIN, or when the last transaction of an AGAIN in
flight is answered. -/
def Obligations.AlsGainChangesOnlyByAgainOrReset : Prop :=
  ∀ s t : State, step s = .next t → t.alsGain ≠ s.alsGain →
    nextEvent s = some .rst ∨
    (∃ w sel, nextEvent s = some (.call w) ∧ decode w = .ok (.again sel)) ∨
    (∃ sel k vals, s.seq = .busy (.again sel) k vals ∧ 2 ≤ k ∧ nextEvent s = some .transport)

/-- R60: the trace is never rewritten: every step leaves what has been on the bus as a beginning of the trace. -/
def Obligations.TraceOnlyGrows : Prop :=
  ∀ s t : State, step s = .next t → s.trace <+: t.trace

/-- R21, R24: no command but RDALS reads ALS_GAIN: STATUS, RESULT, PROX_GAIN and the transactions of any other command do
not depend on it; and RDALS's STATUS and transactions do not either. -/
def Obligations.OnlyRdalsReadsAlsGain : Prop :=
  ∀ (i : Instr) (s t u : State) (g : Byte), exec i s = .next t → exec i { s with alsGain := g } = .next u →
    u.status = t.status ∧ u.trace = t.trace ∧ u.proxGain = t.proxGain ∧ (i ≠ .rdals → u.result = t.result)

/-- R22, R24: no command but RDPROX reads PROX_GAIN. -/
def Obligations.OnlyRdproxReadsProxGain : Prop :=
  ∀ (i : Instr) (s t u : State) (g : Byte), exec i s = .next t → exec i { s with proxGain := g } = .next u →
    u.status = t.status ∧ u.trace = t.trace ∧ u.alsGain = t.alsGain ∧ (i ≠ .rdprox → u.result = t.result)

/-! ### What stands in the sensor -/

/-- R130: after an INIT that completes with OK, the registers it configures stand as the rule's example lists them (ENABLE
as read back with bit 0 set), and every other register is as before. The model's
choice: the view of standing writes, and that it keeps the other registers although INIT's own ENABLE write clears the
power bit (log entries 1, 22 and 24). -/
def Obligations.InitWritesStand : Prop :=
  ∀ (s t : State) (e2 x2 : Byte),
    s.drawAt 13 = .ok e2 x2 → exec .init s = .next t → t.status = 0x00 →
    let m := standingWrites t.trace
    Memory.read m 0x00 = some (e2 ||| 0x01) ∧ Memory.read m 0x01 = some 0xFF ∧ Memory.read m 0x02 = some 0xFF ∧
    Memory.read m 0x03 = some 0xFF ∧ Memory.read m 0x0C = some 0x22 ∧ Memory.read m 0x0D = some 0x00 ∧
    Memory.read m 0x0E = some 0x08 ∧ Memory.read m 0x0F = some 0x2C ∧
    ∀ a, a ∉ [0x00, 0x01, 0x02, 0x03, 0x0C, 0x0D, 0x0E, 0x0F] →
      Memory.read m a = Memory.read (standingWrites s.trace) a

/-- R132, R144, U1: after an INIT that fails at transaction `k`, the register of transaction `k`'s own write is unknown,
the writes before it stand, and (U1) a register that only a later step would have written is unknown. The model's
choice: the view of standing writes, and that it keeps the other registers although INIT's own ENABLE write clears the
power bit (log entries 1, 13, 22 and 24). -/
def Obligations.FailedInitLeavesEarlierWrites : Prop :=
  ∀ (s t : State) (rest : List Event) (k : Nat),
    s.seq = .idle → busyBit s.status = false → s.fault = none → s.schedule = .call 0x0001 :: rest →
    k < 15 → FirstFailure s k → step s = .next t →
    let plan := plannedRequests .init s.drawAt
    let own := (plan[k]?.bind writeTarget).map Prod.fst
    let earlier := (plan.take k).filterMap writeTarget
    ∀ a, Memory.read (standingWrites t.trace) a =
      if own = some a then none
      else match (earlier.reverse.find? fun w => w.1 == a) with
        | some w => some w.2
        | none =>
          if a ∈ [0x00, 0x01, 0x02, 0x03, 0x0C, 0x0D, 0x0E, 0x0F] then none
          else Memory.read (standingWrites s.trace) a

/-- R144: a control or gain command whose write fails leaves that one register unknown and every other as before; failing
earlier, it leaves every register as before. The model's choice: the
view of standing writes, and that it keeps the other registers although a POFF whose write failed may have powered the
sensor off (log entries 1, 22 and 24). -/
def Obligations.FailedUpdateLeavesOneRegisterUnknown : Prop :=
  ∀ (s t : State) (w : Word) (i : Instr) (rest : List Event) (k a : Nat),
    s.seq = .idle → busyBit s.status = false → s.fault = none → s.schedule = .call w :: rest → decode w = .ok i →
    i ≠ .init → i ≠ .rdals → i ≠ .rdprox → k < 3 → FirstFailure s k → step s = .next t →
    let own := if encode i &&& 0x00FF = 0x0007 ∨ encode i &&& 0x00FF = 0x0008 then 0x0F else 0x00
    Memory.read (standingWrites t.trace) a =
      if k = 2 ∧ a = own then none else Memory.read (standingWrites s.trace) a

/-- R66: the reference sensor is a transport that the block's rules admit: a command run against its answers completes
with OK when no transaction is marked as failing, and uses up exactly its answers. The model's choice (log entry 23): the
sensor's list of registers may have any length, and an offset past its end reads as 0. -/
def Obligations.ReferenceSensorAnswersEveryCommand : Prop :=
  ∀ (i : Instr) (r : RefSensor) (s : State) (more : List Draw),
    s.answers = (refCommand i none r).1 ++ more →
    ∃ t, exec i s = .next t ∧ t.status = 0x00 ∧ t.answers = more ∧ t.draws = s.draws
end

