-- ==== Sys2Proof/Laws/State.lean ====
section
/-! SUPPORT. One lemma per field and per update of State, true by unfolding, so that no later proof unfolds an update;
and how the draws to come behave under the updates. -/

namespace Sys2Proof.Laws

open Sys2Proof.Machine

/-! ### One more trace entry -/
@[simp] theorem log_alsGain (e : TraceEvent) (s : State) : (s.log e).alsGain = s.alsGain := rfl
@[simp] theorem log_proxGain (e : TraceEvent) (s : State) : (s.log e).proxGain = s.proxGain := rfl
@[simp] theorem log_status (e : TraceEvent) (s : State) : (s.log e).status = s.status := rfl
@[simp] theorem log_result (e : TraceEvent) (s : State) : (s.log e).result = s.result := rfl
@[simp] theorem log_seq (e : TraceEvent) (s : State) : (s.log e).seq = s.seq := rfl
@[simp] theorem log_fault (e : TraceEvent) (s : State) : (s.log e).fault = s.fault := rfl
@[simp] theorem log_trace (e : TraceEvent) (s : State) : (s.log e).trace = s.trace ++ [e] := rfl
@[simp] theorem log_schedule (e : TraceEvent) (s : State) : (s.log e).schedule = s.schedule := rfl
@[simp] theorem log_answers (e : TraceEvent) (s : State) : (s.log e).answers = s.answers := rfl
@[simp] theorem log_draws (e : TraceEvent) (s : State) : (s.log e).draws = s.draws := rfl

/-! ### Used-up draws -/
@[simp] theorem skipDraws_alsGain (s : State) (n : Nat) : (s.skipDraws n).alsGain = s.alsGain := rfl
@[simp] theorem skipDraws_proxGain (s : State) (n : Nat) : (s.skipDraws n).proxGain = s.proxGain := rfl
@[simp] theorem skipDraws_status (s : State) (n : Nat) : (s.skipDraws n).status = s.status := rfl
@[simp] theorem skipDraws_result (s : State) (n : Nat) : (s.skipDraws n).result = s.result := rfl
@[simp] theorem skipDraws_seq (s : State) (n : Nat) : (s.skipDraws n).seq = s.seq := rfl
@[simp] theorem skipDraws_fault (s : State) (n : Nat) : (s.skipDraws n).fault = s.fault := rfl
@[simp] theorem skipDraws_trace (s : State) (n : Nat) : (s.skipDraws n).trace = s.trace := rfl
@[simp] theorem skipDraws_schedule (s : State) (n : Nat) : (s.skipDraws n).schedule = s.schedule := rfl
@[simp] theorem skipDraws_answers (s : State) (n : Nat) : (s.skipDraws n).answers = s.answers.drop n := rfl
@[simp] theorem skipDraws_draws (s : State) (n : Nat) : (s.skipDraws n).draws = s.draws + (n - s.answers.length) := rfl

/-! ### One transaction -/
@[simp] theorem transact_alsGain (req : BusReq) (s : State) : (transact req s).alsGain = s.alsGain := rfl
@[simp] theorem transact_proxGain (req : BusReq) (s : State) : (transact req s).proxGain = s.proxGain := rfl
@[simp] theorem transact_status (req : BusReq) (s : State) : (transact req s).status = s.status := rfl
@[simp] theorem transact_result (req : BusReq) (s : State) : (transact req s).result = s.result := rfl
@[simp] theorem transact_seq (req : BusReq) (s : State) : (transact req s).seq = s.seq := rfl
@[simp] theorem transact_fault (req : BusReq) (s : State) : (transact req s).fault = s.fault := rfl
@[simp] theorem transact_trace (req : BusReq) (s : State) : (transact req s).trace = s.trace ++ [busEvent req (s.drawAt 0)] := rfl
@[simp] theorem transact_schedule (req : BusReq) (s : State) : (transact req s).schedule = s.schedule := rfl
@[simp] theorem transact_answers (req : BusReq) (s : State) : (transact req s).answers = s.answers.drop 1 := rfl
@[simp] theorem transact_draws (req : BusReq) (s : State) : (transact req s).draws = s.draws + (1 - s.answers.length) := rfl

/-! ### Acceptance -/
@[simp] theorem accept_alsGain (s : State) : (accept s).alsGain = s.alsGain := rfl
@[simp] theorem accept_proxGain (s : State) : (accept s).proxGain = s.proxGain := rfl
@[simp] theorem accept_status (s : State) : (accept s).status = statusBusy := rfl
@[simp] theorem accept_result (s : State) : (accept s).result = s.result := rfl
@[simp] theorem accept_seq (s : State) : (accept s).seq = s.seq := rfl
@[simp] theorem accept_fault (s : State) : (accept s).fault = s.fault := rfl
@[simp] theorem accept_trace (s : State) : (accept s).trace = s.trace := rfl
@[simp] theorem accept_schedule (s : State) : (accept s).schedule = s.schedule := rfl
@[simp] theorem accept_answers (s : State) : (accept s).answers = s.answers := rfl
@[simp] theorem accept_draws (s : State) : (accept s).draws = s.draws := rfl

@[simp] theorem acceptCommand_alsGain (i : Instr) (s : State) : (acceptCommand i s).alsGain = s.alsGain := rfl
@[simp] theorem acceptCommand_proxGain (i : Instr) (s : State) : (acceptCommand i s).proxGain = s.proxGain := rfl
@[simp] theorem acceptCommand_status (i : Instr) (s : State) : (acceptCommand i s).status = statusBusy := rfl
@[simp] theorem acceptCommand_result (i : Instr) (s : State) : (acceptCommand i s).result = s.result := rfl
@[simp] theorem acceptCommand_seq (i : Instr) (s : State) : (acceptCommand i s).seq = s.seq := rfl
@[simp] theorem acceptCommand_fault (i : Instr) (s : State) : (acceptCommand i s).fault = s.fault := rfl
@[simp] theorem acceptCommand_trace (i : Instr) (s : State) : (acceptCommand i s).trace = s.trace ++ [.started i] := rfl
@[simp] theorem acceptCommand_schedule (i : Instr) (s : State) : (acceptCommand i s).schedule = s.schedule := rfl
@[simp] theorem acceptCommand_answers (i : Instr) (s : State) : (acceptCommand i s).answers = s.answers := rfl
@[simp] theorem acceptCommand_draws (i : Instr) (s : State) : (acceptCommand i s).draws = s.draws := rfl

/-! ### Completion -/
@[simp] theorem complete_alsGain (c : Code) (s : State) : (complete c s).alsGain = s.alsGain := rfl
@[simp] theorem complete_proxGain (c : Code) (s : State) : (complete c s).proxGain = s.proxGain := rfl
@[simp] theorem complete_status (c : Code) (s : State) : (complete c s).status = statusDone c := rfl
@[simp] theorem complete_result (c : Code) (s : State) : (complete c s).result = s.result := rfl
@[simp] theorem complete_seq (c : Code) (s : State) : (complete c s).seq = .idle := rfl
@[simp] theorem complete_fault (c : Code) (s : State) : (complete c s).fault = s.fault := rfl
@[simp] theorem complete_trace (c : Code) (s : State) : (complete c s).trace = s.trace := rfl
@[simp] theorem complete_schedule (c : Code) (s : State) : (complete c s).schedule = s.schedule := rfl
@[simp] theorem complete_answers (c : Code) (s : State) : (complete c s).answers = s.answers := rfl
@[simp] theorem complete_draws (c : Code) (s : State) : (complete c s).draws = s.draws := rfl

@[simp] theorem raiseTransportFailure_alsGain (s : State) : (raiseTransportFailure s).alsGain = s.alsGain := rfl
@[simp] theorem raiseTransportFailure_proxGain (s : State) : (raiseTransportFailure s).proxGain = s.proxGain := rfl
@[simp] theorem raiseTransportFailure_status (s : State) : (raiseTransportFailure s).status = statusDone .tfail := rfl
@[simp] theorem raiseTransportFailure_result (s : State) : (raiseTransportFailure s).result = s.result := rfl
@[simp] theorem raiseTransportFailure_seq (s : State) : (raiseTransportFailure s).seq = .idle := rfl
@[simp] theorem raiseTransportFailure_fault (s : State) : (raiseTransportFailure s).fault = s.fault := rfl
@[simp] theorem raiseTransportFailure_trace (s : State) : (raiseTransportFailure s).trace = s.trace := rfl
@[simp] theorem raiseTransportFailure_schedule (s : State) : (raiseTransportFailure s).schedule = s.schedule := rfl
@[simp] theorem raiseTransportFailure_answers (s : State) : (raiseTransportFailure s).answers = s.answers := rfl
@[simp] theorem raiseTransportFailure_draws (s : State) : (raiseTransportFailure s).draws = s.draws := rfl

@[simp] theorem completeIllegal_alsGain (s : State) : (completeIllegal s).alsGain = s.alsGain := rfl
@[simp] theorem completeIllegal_proxGain (s : State) : (completeIllegal s).proxGain = s.proxGain := rfl
@[simp] theorem completeIllegal_status (s : State) : (completeIllegal s).status = statusDone .illegal := rfl
@[simp] theorem completeIllegal_result (s : State) : (completeIllegal s).result = s.result := rfl
@[simp] theorem completeIllegal_seq (s : State) : (completeIllegal s).seq = .idle := rfl
@[simp] theorem completeIllegal_fault (s : State) : (completeIllegal s).fault = s.fault := rfl
@[simp] theorem completeIllegal_trace (s : State) : (completeIllegal s).trace = s.trace := rfl
@[simp] theorem completeIllegal_schedule (s : State) : (completeIllegal s).schedule = s.schedule := rfl
@[simp] theorem completeIllegal_answers (s : State) : (completeIllegal s).answers = s.answers := rfl
@[simp] theorem completeIllegal_draws (s : State) : (completeIllegal s).draws = s.draws := rfl

/-! ### Reset -/
@[simp] theorem resetBlock_alsGain (s : State) : (resetBlock s).alsGain = Config.alsGainReset := rfl
@[simp] theorem resetBlock_proxGain (s : State) : (resetBlock s).proxGain = Config.proxGainReset := rfl
@[simp] theorem resetBlock_status (s : State) : (resetBlock s).status = 0x00 := rfl
@[simp] theorem resetBlock_result (s : State) : (resetBlock s).result = 0x00000000 := rfl
@[simp] theorem resetBlock_seq (s : State) : (resetBlock s).seq = .idle := rfl
@[simp] theorem resetBlock_fault (s : State) : (resetBlock s).fault = s.fault := rfl
@[simp] theorem resetBlock_trace (s : State) : (resetBlock s).trace = s.trace := rfl
@[simp] theorem resetBlock_schedule (s : State) : (resetBlock s).schedule = s.schedule := rfl
@[simp] theorem resetBlock_answers (s : State) : (resetBlock s).answers = s.answers := rfl
@[simp] theorem resetBlock_draws (s : State) : (resetBlock s).draws = s.draws := rfl

/-! ### The host's moves -/
@[simp] theorem recordIssueWhileBusy_alsGain (s : State) : (recordIssueWhileBusy s).alsGain = s.alsGain := rfl
@[simp] theorem recordIssueWhileBusy_proxGain (s : State) : (recordIssueWhileBusy s).proxGain = s.proxGain := rfl
@[simp] theorem recordIssueWhileBusy_status (s : State) : (recordIssueWhileBusy s).status = s.status := rfl
@[simp] theorem recordIssueWhileBusy_result (s : State) : (recordIssueWhileBusy s).result = s.result := rfl
@[simp] theorem recordIssueWhileBusy_seq (s : State) : (recordIssueWhileBusy s).seq = s.seq := rfl
@[simp] theorem recordIssueWhileBusy_fault (s : State) : (recordIssueWhileBusy s).fault = some .issueWhileBusy := rfl
@[simp] theorem recordIssueWhileBusy_trace (s : State) : (recordIssueWhileBusy s).trace = s.trace := rfl
@[simp] theorem recordIssueWhileBusy_schedule (s : State) : (recordIssueWhileBusy s).schedule = s.schedule := rfl
@[simp] theorem recordIssueWhileBusy_answers (s : State) : (recordIssueWhileBusy s).answers = s.answers := rfl
@[simp] theorem recordIssueWhileBusy_draws (s : State) : (recordIssueWhileBusy s).draws = s.draws := rfl

@[simp] theorem popEvent_alsGain (s : State) : (popEvent s).alsGain = s.alsGain := rfl
@[simp] theorem popEvent_proxGain (s : State) : (popEvent s).proxGain = s.proxGain := rfl
@[simp] theorem popEvent_status (s : State) : (popEvent s).status = s.status := rfl
@[simp] theorem popEvent_result (s : State) : (popEvent s).result = s.result := rfl
@[simp] theorem popEvent_seq (s : State) : (popEvent s).seq = s.seq := rfl
@[simp] theorem popEvent_fault (s : State) : (popEvent s).fault = s.fault := rfl
@[simp] theorem popEvent_trace (s : State) : (popEvent s).trace = s.trace := rfl
@[simp] theorem popEvent_schedule (s : State) : (popEvent s).schedule = s.schedule.tail := rfl
@[simp] theorem popEvent_answers (s : State) : (popEvent s).answers = s.answers := rfl
@[simp] theorem popEvent_draws (s : State) : (popEvent s).draws = s.draws := rfl

@[simp] theorem presentWord_alsGain (w : Word) (s : State) : (presentWord w s).alsGain = s.alsGain := rfl
@[simp] theorem presentWord_proxGain (w : Word) (s : State) : (presentWord w s).proxGain = s.proxGain := rfl
@[simp] theorem presentWord_status (w : Word) (s : State) : (presentWord w s).status = s.status := rfl
@[simp] theorem presentWord_result (w : Word) (s : State) : (presentWord w s).result = s.result := rfl
@[simp] theorem presentWord_seq (w : Word) (s : State) : (presentWord w s).seq = s.seq := rfl
@[simp] theorem presentWord_fault (w : Word) (s : State) : (presentWord w s).fault = s.fault := rfl
@[simp] theorem presentWord_trace (w : Word) (s : State) : (presentWord w s).trace = s.trace := rfl
@[simp] theorem presentWord_schedule (w : Word) (s : State) : (presentWord w s).schedule = .call w :: s.schedule := rfl
@[simp] theorem presentWord_answers (w : Word) (s : State) : (presentWord w s).answers = s.answers := rfl
@[simp] theorem presentWord_draws (w : Word) (s : State) : (presentWord w s).draws = s.draws := rfl

@[simp] theorem readyForWord_alsGain (s : State) : (readyForWord s).alsGain = s.alsGain := rfl
@[simp] theorem readyForWord_proxGain (s : State) : (readyForWord s).proxGain = s.proxGain := rfl
@[simp] theorem readyForWord_status (s : State) : (readyForWord s).status = s.status &&& 0x7F := rfl
@[simp] theorem readyForWord_result (s : State) : (readyForWord s).result = s.result := rfl
@[simp] theorem readyForWord_seq (s : State) : (readyForWord s).seq = .idle := rfl
@[simp] theorem readyForWord_fault (s : State) : (readyForWord s).fault = none := rfl
@[simp] theorem readyForWord_trace (s : State) : (readyForWord s).trace = s.trace := rfl
@[simp] theorem readyForWord_schedule (s : State) : (readyForWord s).schedule = s.schedule := rfl
@[simp] theorem readyForWord_answers (s : State) : (readyForWord s).answers = s.answers := rfl
@[simp] theorem readyForWord_draws (s : State) : (readyForWord s).draws = s.draws := rfl

/-! ### The draws to come depend on `answers` and `draws` alone -/
theorem drawAt_congr {s t : State} (ha : t.answers = s.answers) (hd : t.draws = s.draws) (k : Nat) : t.drawAt k = s.drawAt k := by
  simp only [State.drawAt, ha, hd]
@[simp] theorem log_drawAt (e : TraceEvent) (s : State) (k : Nat) : (s.log e).drawAt k = s.drawAt k := rfl
@[simp] theorem accept_drawAt (s : State) (k : Nat) : (accept s).drawAt k = s.drawAt k := rfl
@[simp] theorem acceptCommand_drawAt (i : Instr) (s : State) (k : Nat) : (acceptCommand i s).drawAt k = s.drawAt k := rfl
@[simp] theorem complete_drawAt (c : Code) (s : State) (k : Nat) : (complete c s).drawAt k = s.drawAt k := rfl
@[simp] theorem popEvent_drawAt (s : State) (k : Nat) : (popEvent s).drawAt k = s.drawAt k := rfl

/-- Using up draws shifts the draws to come. -/
@[simp] theorem skipDraws_drawAt (s : State) (n k : Nat) : (s.skipDraws n).drawAt k = s.drawAt (n + k) := by
  simp only [State.drawAt, skipDraws_answers, skipDraws_draws, List.getElem?_drop, List.length_drop]
  cases h : s.answers[n + k]? with
  | some d => rfl
  | none =>
    have : s.answers.length ≤ n + k := by simpa using h
    simp only
    congr 1
    omega

@[simp] theorem transact_drawAt (req : BusReq) (s : State) (k : Nat) : (transact req s).drawAt k = s.drawAt (1 + k) := by
  simp [transact]

/-- Draws used up one after another. -/
@[simp] theorem skipDraws_skipDraws (s : State) (n m : Nat) : (s.skipDraws n).skipDraws m = s.skipDraws (n + m) := by
  simp only [State.skipDraws, List.drop_drop, List.length_drop]
  congr 1
  omega

@[simp] theorem skipDraws_zero (s : State) : s.skipDraws 0 = s := by
  simp [State.skipDraws]

end Sys2Proof.Laws
end

