-- ==== Sys2Proof/Laws/Ops.lean ====
section
/-! SUPPORT. One specification lemma per shared operation: the state after it as one record update over the draws used
up, and the case of a failing transaction. Provers cite these instead of unfolding the operations. -/

namespace Sys2Proof.Laws

open Sys2Proof.Machine

/-- A transaction uses up one draw and adds one trace entry. -/
theorem transact_eq (req : BusReq) (s : State) :
    transact req s = { s.skipDraws 1 with trace := s.trace ++ [busEvent req (s.drawAt 0)] } := rfl

@[simp] theorem andThen_done {α β : Type} (v : α) (s : State) (f : α → State → Res β) :
    (Res.done v s).andThen f = f v s := rfl

@[simp] theorem andThen_failed {α β : Type} (s : State) (f : α → State → Res β) :
    (Res.failed s : Res α).andThen f = .failed s := rfl

theorem andThen_assoc {α β γ : Type} (r : Res α) (f : α → State → Res β) (g : β → State → Res γ) :
    (r.andThen f).andThen g = r.andThen fun v s => (f v s).andThen g := by
  cases r <;> rfl

@[simp] theorem finish_done (s : State) : finish (.done () s) = complete .ok s := rfl

@[simp] theorem finish_failed (s : State) : finish (.failed s) = raiseTransportFailure s := rfl

/-- A write transaction that is answered. -/
theorem busWrite_ok {req : BusReq} {s : State} {a b : Byte} (h : s.drawAt 0 = .ok a b) :
    busWrite req s = .done () (transact req s) := by
  simp [busWrite, h]

/-- A write transaction that fails. -/
theorem busWrite_fail {req : BusReq} {s : State} (h : s.drawAt 0 = .fail) :
    busWrite req s = .failed (transact req s) := by
  simp [busWrite, h]

/-- A 1-byte read that is answered. -/
theorem busRead1_ok {s : State} {a b : Byte} (h : s.drawAt 0 = .ok a b) :
    busRead1 s = .done a (transact (.read 1) s) := by
  simp [busRead1, h]

/-- A 1-byte read that fails. -/
theorem busRead1_fail {s : State} (h : s.drawAt 0 = .fail) : busRead1 s = .failed (transact (.read 1) s) := by
  simp [busRead1, h]

/-- A 2-byte read that is answered. -/
theorem busRead2_ok {s : State} {a b : Byte} (h : s.drawAt 0 = .ok a b) :
    busRead2 s = .done (littleEndian a b) (transact (.read 2) s) := by
  simp [busRead2, h]

/-- A 2-byte read that fails. -/
theorem busRead2_fail {s : State} (h : s.drawAt 0 = .fail) : busRead2 s = .failed (transact (.read 2) s) := by
  simp [busRead2, h]

/-- R52 when both transactions are answered: the byte read is the read's first byte. -/
theorem memRead1_ok {r : SensorReg} {s : State} {a b e x : Byte} (h0 : s.drawAt 0 = .ok a b) (h1 : s.drawAt 1 = .ok e x) :
    memRead1 r s = .done e (transact (.read 1) (transact (selectReq r) s)) := by
  rw [memRead1, busWrite_ok h0, andThen_done, busRead1_ok (by simpa using h1)]

/-- R52: if the select fails, the read is not issued. -/
theorem memRead1_select_fail {r : SensorReg} {s : State} (h0 : s.drawAt 0 = .fail) :
    memRead1 r s = .failed (transact (selectReq r) s) := by
  rw [memRead1, busWrite_fail h0, andThen_failed]

/-- R52 when the read fails. -/
theorem memRead1_read_fail {r : SensorReg} {s : State} {a b : Byte} (h0 : s.drawAt 0 = .ok a b) (h1 : s.drawAt 1 = .fail) :
    memRead1 r s = .failed (transact (.read 1) (transact (selectReq r) s)) := by
  rw [memRead1, busWrite_ok h0, andThen_done, busRead1_fail (by simpa using h1)]

/-- R53 when both transactions are answered: the value is little-endian. -/
theorem memRead2_ok {r : SensorReg} {s : State} {a b lo hi : Byte} (h0 : s.drawAt 0 = .ok a b) (h1 : s.drawAt 1 = .ok lo hi) :
    memRead2 r s = .done (littleEndian lo hi) (transact (.read 2) (transact (selectReq r) s)) := by
  rw [memRead2, busWrite_ok h0, andThen_done, busRead2_ok (by simpa using h1)]

/-- R53: if the select fails, the read is not issued. -/
theorem memRead2_select_fail {r : SensorReg} {s : State} (h0 : s.drawAt 0 = .fail) :
    memRead2 r s = .failed (transact (selectReq r) s) := by
  rw [memRead2, busWrite_fail h0, andThen_failed]

/-- R53 when the read fails. -/
theorem memRead2_read_fail {r : SensorReg} {s : State} {a b : Byte} (h0 : s.drawAt 0 = .ok a b) (h1 : s.drawAt 1 = .fail) :
    memRead2 r s = .failed (transact (.read 2) (transact (selectReq r) s)) := by
  rw [memRead2, busWrite_ok h0, andThen_done, busRead2_fail (by simpa using h1)]

/-- R51 when the write is answered. -/
theorem memWrite_ok {r : SensorReg} {v : Byte} {s : State} {a b : Byte} (h : s.drawAt 0 = .ok a b) :
    memWrite r v s = .done () (transact (writeReq r v) s) := busWrite_ok h

/-- R51 when the write fails. -/
theorem memWrite_fail {r : SensorReg} {v : Byte} {s : State} (h : s.drawAt 0 = .fail) :
    memWrite r v s = .failed (transact (writeReq r v) s) := busWrite_fail h

/-- R90 when its three transactions are answered. -/
theorem updateEnable_ok {mask : Byte} {set : Bool} {s : State} {a b e x c d : Byte}
    (h0 : s.drawAt 0 = .ok a b) (h1 : s.drawAt 1 = .ok e x) (h2 : s.drawAt 2 = .ok c d) :
    updateEnable mask set s = .done () (transact (writeReq .enable (enableUpdate mask set e))
      (transact (.read 1) (transact (selectReq .enable) s))) := by
  rw [updateEnable, memRead1_ok h0 h1, andThen_done, memWrite_ok (by simpa using h2)]

/-! ### A run of transactions from one state

`after s n evs` is `s` with its next `n` draws used up and the entries `evs` added to its trace. Every state inside a
command is one, so a command is evaluated from its draws with these lemmas alone. -/

/-- The state `n` draws and some trace entries after `s`. -/
def after (s : State) (n : Nat) (evs : List TraceEvent) : State := { s.skipDraws n with trace := s.trace ++ evs }

theorem after_zero (s : State) : after s 0 [] = s := by simp [after]

theorem after_eq (s : State) (n : Nat) (evs : List TraceEvent) :
    after s n evs = { s.skipDraws n with trace := s.trace ++ evs } := rfl

@[simp] theorem after_drawAt (s : State) (n k : Nat) (evs : List TraceEvent) : (after s n evs).drawAt k = s.drawAt (n + k) :=
  skipDraws_drawAt s n k

@[simp] theorem after_alsGain (s : State) (n : Nat) (evs : List TraceEvent) : (after s n evs).alsGain = s.alsGain := rfl
@[simp] theorem after_proxGain (s : State) (n : Nat) (evs : List TraceEvent) : (after s n evs).proxGain = s.proxGain := rfl
@[simp] theorem after_status (s : State) (n : Nat) (evs : List TraceEvent) : (after s n evs).status = s.status := rfl
@[simp] theorem after_result (s : State) (n : Nat) (evs : List TraceEvent) : (after s n evs).result = s.result := rfl
@[simp] theorem after_seq (s : State) (n : Nat) (evs : List TraceEvent) : (after s n evs).seq = s.seq := rfl
@[simp] theorem after_fault (s : State) (n : Nat) (evs : List TraceEvent) : (after s n evs).fault = s.fault := rfl
@[simp] theorem after_schedule (s : State) (n : Nat) (evs : List TraceEvent) : (after s n evs).schedule = s.schedule := rfl
@[simp] theorem after_trace (s : State) (n : Nat) (evs : List TraceEvent) : (after s n evs).trace = s.trace ++ evs := rfl

@[simp] theorem log_after (e : TraceEvent) (s : State) (n : Nat) (evs : List TraceEvent) :
    (after s n evs).log e = after s n (evs ++ [e]) := by
  simp [after, State.log]

@[simp] theorem transact_after (req : BusReq) (s : State) (n : Nat) (evs : List TraceEvent) :
    transact req (after s n evs) = after s (n + 1) (evs ++ [busEvent req (s.drawAt n)]) := by
  rw [transact, after_drawAt, Nat.add_zero]
  have : (after s n evs).skipDraws 1 = after s (n + 1) evs := by
    simp only [after, ← skipDraws_skipDraws s n 1]
    rfl
  rw [this, log_after]

@[simp] theorem busWrite_after (req : BusReq) (s : State) (n : Nat) (evs : List TraceEvent) :
    busWrite req (after s n evs) = match s.drawAt n with
      | .ok _ _ => .done () (after s (n + 1) (evs ++ [busEvent req (s.drawAt n)]))
      | .fail => .failed (after s (n + 1) (evs ++ [busEvent req (s.drawAt n)])) := by
  cases h : s.drawAt n <;> simp [busWrite, h]

@[simp] theorem busRead1_after (s : State) (n : Nat) (evs : List TraceEvent) :
    busRead1 (after s n evs) = match s.drawAt n with
      | .ok b0 _ => .done b0 (after s (n + 1) (evs ++ [busEvent (.read 1) (s.drawAt n)]))
      | .fail => .failed (after s (n + 1) (evs ++ [busEvent (.read 1) (s.drawAt n)])) := by
  cases h : s.drawAt n <;> simp [busRead1, h]

@[simp] theorem busRead2_after (s : State) (n : Nat) (evs : List TraceEvent) :
    busRead2 (after s n evs) = match s.drawAt n with
      | .ok b0 b1 => .done (littleEndian b0 b1) (after s (n + 1) (evs ++ [busEvent (.read 2) (s.drawAt n)]))
      | .fail => .failed (after s (n + 1) (evs ++ [busEvent (.read 2) (s.drawAt n)])) := by
  cases h : s.drawAt n <;> simp [busRead2, h]

/-- R141: what `raiseTransportFailure` writes, and nothing else. -/
theorem raiseTransportFailure_eq (s : State) :
    raiseTransportFailure s = { s with status := 0x01, seq := .idle } := rfl

/-- R142: what an ILLEGAL completion writes, and nothing else. -/
theorem completeIllegal_eq (s : State) : completeIllegal s = { s with status := 0x02, seq := .idle } := rfl

/-- R140: what an OK completion writes, and nothing else. -/
theorem complete_ok_eq (s : State) : complete .ok s = { s with status := 0x00, seq := .idle } := rfl

/-- R23: a division by a gain other than 0. -/
theorem gainDiv_of_ne {a : Nat} {g : Byte} (h : g ≠ 0) : gainDiv a g = a / g.toNat := by
  rw [gainDiv, if_neg h]

end Sys2Proof.Laws
end

