-- ==== Sys2Proof/Laws/PerInstr.lean ====
section
/-! SUPPORT. Statements made per command: the encoded word meets the match and mask of the command's row in
spec/opcode_table.json, and its reserved field is 0. -/

namespace Sys2Proof.Laws.TableRow

/-- The `mask` of a command's row of the opcode table. -/
def rowMask (i : Instr) : Word :=
  match i with
  | .init => 0xFFFF
  | .pon => 0xFFFF
  | .poff => 0xFFFF
  | .aen _ => 0xFEFF
  | .pen _ => 0xFEFF
  | .wen _ => 0xFEFF
  | .again _ => 0x00FF
  | .pgain _ => 0x00FF
  | .rdals => 0xFFFF
  | .rdprox => 0xFFFF

/-- The `match` of a command's row of the opcode table. -/
def rowMatch (i : Instr) : Word :=
  match i with
  | .init => 0x0001
  | .pon => 0x0002
  | .poff => 0x0003
  | .aen _ => 0x0004
  | .pen _ => 0x0005
  | .wen _ => 0x0006
  | .again _ => 0x0007
  | .pgain _ => 0x0008
  | .rdals => 0x0009
  | .rdprox => 0x000A

/-- The command's word is a word of its own row, with `RSV = 0`. -/
def Statement (i : Instr) : Prop :=
  encode i &&& rowMask i = rowMatch i ∧ (fieldsOf (encode i)).rsv = 0 ∧ i.wellFormed = true

theorem init : Statement .init := by unfold Statement; decide
theorem pon : Statement .pon := by unfold Statement; decide
theorem poff : Statement .poff := by unfold Statement; decide
theorem aen (en : Bool) : Statement (.aen en) := by unfold Statement; cases en <;> decide
theorem pen (en : Bool) : Statement (.pen en) := by unfold Statement; cases en <;> decide
theorem wen (en : Bool) : Statement (.wen en) := by unfold Statement; cases en <;> decide
theorem again (sel : Byte) : Statement (.again sel) := by unfold Statement; revert sel; decide
theorem pgain (sel : Byte) : Statement (.pgain sel) := by unfold Statement; revert sel; decide
theorem rdals : Statement .rdals := by unfold Statement; decide
theorem rdprox : Statement .rdprox := by unfold Statement; decide

end Sys2Proof.Laws.TableRow
end

