-- ==== Sys2Proof/Laws/Sensor.lean ====
section
/-! SUPPORT. The view of the sensor's standing writes: reading after a write and after forgetting, and the canonical form
that every memory operation keeps. -/

namespace Sys2Proof.Laws

open Sys2Proof.Machine

theorem above_trans {a b : Nat} {m : List Host.Cell} (hab : a ≤ b) (h : Memory.above b m = true) : Memory.above a m = true := by
  cases m with
  | nil => rfl
  | cons c rest => simp only [Memory.above, decide_eq_true_eq] at h ⊢; omega

theorem wf_cons {c : Nat} {b : Byte} {m : List Host.Cell} :
    Memory.wf ((c, b) :: m) = true ↔ Memory.above c m = true ∧ Memory.wf m = true := by
  simp [Memory.wf]

/-- In canonical form, an offset below every listed one is not listed. -/
theorem read_of_above {a : Nat} {m : List Host.Cell} (h : Memory.above a m = true) (hw : Memory.wf m = true) :
    Memory.read m a = none := by
  induction m with
  | nil => rfl
  | cons x rest ih =>
    obtain ⟨c, b⟩ := x
    have hc : a < c := by simpa [Memory.above] using h
    have hr := wf_cons.mp hw
    rw [Memory.read, if_neg (by omega)]
    exact ih (above_trans (by omega) hr.1) hr.2

/-- Reading an offset after a write. -/
theorem read_write (m : List Host.Cell) (a b : Nat) (v : Byte) :
    Memory.read (Memory.write m a v) b = if a = b then some v else Memory.read m b := by
  induction m with
  | nil => simp [Memory.write, Memory.read]
  | cons x rest ih =>
    obtain ⟨c, w⟩ := x
    simp only [Memory.write]
    split
    · simp only [Memory.read]
    · split
      · subst a; simp only [Memory.read]; split <;> rfl
      · simp only [Memory.read, ih]
        split <;> split <;> first | rfl | omega

/-- Reading an offset after forgetting one. -/
theorem read_forget (m : List Host.Cell) (a b : Nat) :
    Memory.read (Memory.forget m a) b = if a = b then none else Memory.read m b := by
  induction m with
  | nil => simp [Memory.forget, Memory.read]
  | cons x rest ih =>
    obtain ⟨c, w⟩ := x
    simp only [Memory.forget]
    split
    · subst a
      rw [ih]
      simp only [Memory.read]
      split <;> rfl
    · simp only [Memory.read, ih]
      split <;> split <;> first | rfl | omega

theorem above_write {a c : Nat} {v : Byte} {m : List Host.Cell} (hca : c < a) (h : Memory.above c m = true) :
    Memory.above c (Memory.write m a v) = true := by
  cases m with
  | nil => simpa [Memory.write, Memory.above] using hca
  | cons x rest =>
    obtain ⟨d, w⟩ := x
    have hd : c < d := by simpa [Memory.above] using h
    simp only [Memory.write]
    split
    · simpa [Memory.above] using hca
    · split <;> simpa [Memory.above] using by omega

/-- A write keeps the canonical form. -/
theorem wf_write {a : Nat} {v : Byte} {m : List Host.Cell} (h : Memory.wf m = true) : Memory.wf (Memory.write m a v) = true := by
  induction m with
  | nil => rfl
  | cons x rest ih =>
    obtain ⟨c, w⟩ := x
    have hr := wf_cons.mp h
    simp only [Memory.write]
    split
    · rename_i hac
      rw [wf_cons]
      exact ⟨by simpa [Memory.above] using hac, h⟩
    · split
      · rename_i hac
        subst a
        exact wf_cons.mpr hr
      · exact wf_cons.mpr ⟨above_write (by omega) hr.1, ih hr.2⟩

theorem above_forget {a c : Nat} {m : List Host.Cell} (h : Memory.above c m = true) (hw : Memory.wf m = true) :
    Memory.above c (Memory.forget m a) = true := by
  induction m with
  | nil => rfl
  | cons x rest ih =>
    obtain ⟨d, w⟩ := x
    have hd : c < d := by simpa [Memory.above] using h
    have hr := wf_cons.mp hw
    simp only [Memory.forget]
    split
    · exact ih (above_trans (by omega) hr.1) hr.2
    · simpa [Memory.above] using hd

/-- Forgetting keeps the canonical form. -/
theorem wf_forget {a : Nat} {m : List Host.Cell} (h : Memory.wf m = true) : Memory.wf (Memory.forget m a) = true := by
  induction m with
  | nil => rfl
  | cons x rest ih =>
    obtain ⟨c, w⟩ := x
    have hr := wf_cons.mp h
    simp only [Memory.forget]
    split
    · exact ih hr.2
    · exact wf_cons.mpr ⟨above_forget hr.1 hr.2, ih hr.2⟩

theorem wf_forgetAll {l : List Nat} {m : List Host.Cell} (h : Memory.wf m = true) : Memory.wf (forgetAll m l) = true := by
  induction l generalizing m with
  | nil => exact h
  | cons a rest ih => exact ih (wf_forget h)

/-- Reading an offset after forgetting several. -/
theorem read_forgetAll (l : List Nat) (m : List Host.Cell) (b : Nat) :
    Memory.read (forgetAll m l) b = if b ∈ l then none else Memory.read m b := by
  induction l generalizing m with
  | nil => simp [forgetAll]
  | cons a rest ih =>
    rw [forgetAll, ih, read_forget]
    by_cases hb : b ∈ rest <;> by_cases ha : a = b <;> simp [hb, ha, eq_comm]
    · intro h; exact absurd h.symm ha

/-- One trace entry keeps the view canonical. -/
theorem wf_see {v : SensorView} {e : TraceEvent} (h : Memory.wf v.cells = true) : Memory.wf (v.see e).cells = true := by
  have hl : ∀ req, Memory.wf (v.lost req).cells = true := fun req => wf_forgetAll h
  cases e with
  | started cmd => exact h
  | abandoned dev req => exact hl req
  | settleReq => exact h
  | settleDone => exact h
  | bus dev req rsp =>
    cases rsp with
    | fail => exact hl req
    | ok bytes =>
      simp only [SensorView.see]
      split
      · exact h
      · exact wf_write h

/-- The standing writes of every trace are in canonical form. -/
theorem wf_standingWrites (t : List TraceEvent) : Memory.wf (standingWrites t) = true := by
  have : ∀ v : SensorView, Memory.wf v.cells = true → Memory.wf (t.foldl SensorView.see v).cells = true := by
    induction t with
    | nil => exact fun v h => h
    | cons e rest ih => exact fun v h => ih _ (wf_see h)
  exact this SensorView.unknown rfl

/-- At reset nothing is known to stand. -/
theorem standingWrites_reset : standingWrites State.reset.trace = [] := rfl

/-- The view of a longer trace goes on from the view of its beginning. -/
theorem sensorView_append (t u : List TraceEvent) : sensorView (t ++ u) = u.foldl SensorView.see (sensorView t) := by
  simp [sensorView, List.foldl_append]

end Sys2Proof.Laws
end

