-- ==== Sys2Proof/Laws/Sequencer.lean ====
section
/-! SUPPORT. What one move can do, said once: the sequencer's moves and the whole step. Invariants are derived from these
instead of unfolding the step. -/

namespace Sys2Proof.Laws

open Sys2Proof.Machine

/-- R53: the value of a 2-byte read. -/
theorem littleEndian_toNat (lo hi : Byte) : (littleEndian lo hi).toNat = lo.toNat + 256 * hi.toNat := by
  have h1 := lo.isLt
  have h2 := hi.isLt
  simp only [littleEndian, BitVec.toNat_or, BitVec.toNat_shiftLeft, BitVec.toNat_setWidth]
  rw [Nat.mod_eq_of_lt (by omega), Nat.mod_eq_of_lt (by omega : hi.toNat < 2 ^ 16), Nat.shiftLeft_eq,
    Nat.mod_eq_of_lt (by omega), Nat.or_comm, ← Nat.shiftLeft_eq, ← Nat.shiftLeft_add_eq_or_of_lt h1, Nat.shiftLeft_eq]
  omega

/-- A command has a transaction at each position below its count, and none from there on. -/
theorem request_isSome (cmd : Instr) (vals : List Word) (k : Nat) :
    (request cmd vals k).isSome = true ↔ k < txnCount cmd := by
  rcases Nat.lt_or_ge k 15 with hk | hk
  · cases cmd <;> interval_cases k <;>
      simp [request, initRequest, enableRequest, controlRequest, rdalsRequest, rdproxRequest, txnCount]
  · obtain ⟨j, rfl⟩ : ∃ j, k = j + 15 := ⟨k - 15, by omega⟩
    cases cmd <;>
      simp [request, initRequest, enableRequest, controlRequest, rdalsRequest, rdproxRequest, txnCount]

/-- What `advance` can do: the next transaction, the settle wait, or completion. -/
theorem advance_cases (cmd : Instr) (k : Nat) (vals : List Word) (s : State) :
    (k < txnCount cmd ∧ advance cmd k vals s = { s with seq := .busy cmd k vals }) ∨
    (txnCount cmd ≤ k ∧ settles cmd = true ∧
      advance cmd k vals s = { s with seq := .settling cmd, trace := s.trace ++ [.settleReq] }) ∨
    (txnCount cmd ≤ k ∧ settles cmd = false ∧ advance cmd k vals s = complete .ok (commit cmd vals s)) := by
  unfold advance
  split
  · exact .inl ⟨‹_›, rfl⟩
  · split
    · exact .inr (.inl ⟨by omega, ‹_›, rfl⟩)
    · rename_i hs
      exact .inr (.inr ⟨by omega, by simpa using hs, rfl⟩)

/-- What the transport's move can do. -/
theorem transportAnswers_cases (s : State) :
    transportAnswers s = s ∨
    (∃ cmd k vals req, s.seq = .busy cmd k vals ∧ request cmd vals k = some req ∧
      ((s.drawAt 0 = .fail ∧ transportAnswers s = raiseTransportFailure (transact req s)) ∨
       (∃ b0 b1, s.drawAt 0 = .ok b0 b1 ∧
         transportAnswers s = advance cmd (k + 1) (vals ++ readValue req b0 b1) (transact req s)))) := by
  cases hq : s.seq with
  | idle => exact .inl (by simp [transportAnswers, hq])
  | settling cmd => exact .inl (by simp [transportAnswers, hq])
  | busy cmd k vals =>
    cases hr : request cmd vals k with
    | none => exact .inl (by simp [transportAnswers, hq, hr])
    | some req =>
      refine .inr ⟨cmd, k, vals, req, rfl, hr, ?_⟩
      cases hd : s.drawAt 0 with
      | fail => exact .inl ⟨rfl, by simp [transportAnswers, hq, hr, hd]⟩
      | ok b0 b1 => exact .inr ⟨b0, b1, rfl, by simp [transportAnswers, hq, hr, hd]⟩

/-- What the settle timer's move can do. -/
theorem settleTimerDone_cases (s : State) :
    settleTimerDone s = s ∨ (∃ cmd, s.seq = .settling cmd ∧ settleTimerDone s = complete .ok (s.log .settleDone)) := by
  cases hq : s.seq with
  | idle => exact .inl (by simp [settleTimerDone, hq])
  | busy cmd k vals => exact .inl (by simp [settleTimerDone, hq])
  | settling cmd => exact .inr ⟨cmd, rfl, by simp [settleTimerDone, hq]⟩

/-- What a reset can do to the trace: nothing, or mark the transaction in flight as abandoned. -/
theorem abandonInFlight_cases (s : State) :
    (busReqPort s = none ∧ abandonInFlight s = s) ∨
    (∃ req, busReqPort s = some req ∧ abandonInFlight s = s.log (.abandoned Config.devAddr req)) := by
  cases h : busReqPort s with
  | none => exact .inl ⟨rfl, by simp [abandonInFlight, h]⟩
  | some req => exact .inr ⟨req, rfl, by simp [abandonInFlight, h]⟩

/-- A word on an idle block: the command it decodes to, or ILLEGAL. -/
theorem runWord_cases (w : Word) (s : State) :
    (∃ i, decode w = .ok i ∧ runWord w s = exec i (acceptCommand i s)) ∨
    (∃ e, decode w = .error e ∧ runWord w s = .next (completeIllegal (accept s))) := by
  cases h : decode w with
  | ok i => exact .inl ⟨i, rfl, by simp [runWord, h]⟩
  | error e => exact .inr ⟨e, rfl, by simp [runWord, h]⟩

/-- A word issued without waiting on an idle block. -/
theorem startWord_cases (w : Word) (s : State) :
    (∃ i, decode w = .ok i ∧ startWord w s = { acceptCommand i s with seq := .busy i 0 [] }) ∨
    (∃ e, decode w = .error e ∧ startWord w s = completeIllegal (accept s)) := by
  cases h : decode w with
  | ok i =>
    refine .inl ⟨i, rfl, ?_⟩
    have : 0 < txnCount i := by cases i <;> simp [txnCount]
    simp [startWord, h, startCommand, advance, this]
  | error e => exact .inr ⟨e, rfl, by simp [startWord, h]⟩

/-- What a step can do: an idle block waits, or one agent moves. -/
theorem step_cases {s t : State} (h : step s = .next t) :
    (s.seq = .idle ∧ nextEvent s = none ∧ t = s) ∨
    (∃ e, nextEvent s = some e ∧ takeEvent e (popEvent s) = .next t) := by
  have h' : agentStep s = .next t := by
    unfold step machineStep at h
    split at h
    · cases h
    · exact h
    · exact h
    · exact h
  unfold agentStep at h'
  split at h'
  · rename_i hn
    refine .inl ⟨?_, hn, by cases h'; rfl⟩
    unfold nextEvent at hn
    split at hn
    · cases hn
    · split at hn
      · assumption
      · cases hn
      · cases hn
  · exact .inr ⟨_, ‹_›, h'⟩

end Sys2Proof.Laws
end

