-- ==== Sys2Proof/Tests/Slice0.lean ====
section
/-! SUPPORT. The model's own tests. Expected values are the spec's: worked examples and vectors of 95_test_vectors.md (each
test names its vector) and words of 30_encoding.md R83. After them, for every statement with hypotheses, a witness that
meets them. -/

namespace Sys2Proof.Tests

open Sys2Proof Sys2Proof.Machine Sys2Proof.Safety

/-- The reset state with answers of the transport to come. -/
def withAnswers (l : List Draw) : State := { State.reset with answers := l }

/-- The reset state with events to come. -/
def withEvents (l : List Event) : State := { State.reset with schedule := l }

/-- The state a step gives, if it gives one. -/
def nextOf (o : Host.Outcome State Fault Refusal) : Option State :=
  match o with
  | .next s => some s
  | .fault _ => none
  | .refused _ => none

/-- A reference sensor of all zeros with some registers set. -/
def sensorWith (l : List (Nat × Byte)) : RefSensor :=
  { reg := l.foldl (fun r p => r.set p.1 p.2) (List.replicate 32 0), ptr := 0 }

/-- The trace a command adds, run as one step from reset against the reference sensor. -/
def refTrace (i : Instr) (failAt : Option Nat) (r : RefSensor) : Option (List TraceEvent) :=
  (nextOf (exec i (withAnswers (refCommand i failAt r).1))).map fun t => t.trace

/-- STATUS, RESULT and the gains after a command, run as one step from reset against the reference sensor. -/
def refRegs (i : Instr) (failAt : Option Nat) (r : RefSensor) : Option (Byte × Word32 × Byte × Byte) :=
  (nextOf (exec i (withAnswers (refCommand i failAt r).1))).map fun t => (t.status, t.result, t.alsGain, t.proxGain)

/-! ### Well-formedness: each check of R73 refuses an ill-formed word -/

theorem smoke_legal_word : (fieldsOf 0x0106).wellFormed = true := by decide
/-- V-DEC-02. -/
theorem smoke_reserved_opcode : (fieldsOf 0x000B).opcodeKnown = false ∧ (fieldsOf 0x000B).wellFormed = false := by decide
/-- V-DEC-08. -/
theorem smoke_reserved_field : (fieldsOf 0x00F7).reservedClear = false ∧ (fieldsOf 0x00F7).wellFormed = false := by decide
/-- V-DEC-10. -/
theorem smoke_no_operand : (fieldsOf 0x0109).noOperandClear = false ∧ (fieldsOf 0x0109).wellFormed = false := by decide
/-- V-DEC-12. -/
theorem smoke_enable_argument : (fieldsOf 0x0204).enableArgClear = false ∧ (fieldsOf 0x0204).wellFormed = false := by decide

/-! ### Decoding: words written out bit by bit from R70 and R71 (ARG, RSV, OP) -/

theorem test_decode_init : decode 0b0000000000000001 = .ok .init := by decide
theorem test_decode_pon : decode 0b0000000000000010 = .ok .pon := by decide
theorem test_decode_poff : decode 0b0000000000000011 = .ok .poff := by decide
theorem test_decode_aen : decode 0b0000000100000100 = .ok (.aen true) ∧ decode 0b0000000000000100 = .ok (.aen false) := by decide
theorem test_decode_pen : decode 0b0000000100000101 = .ok (.pen true) ∧ decode 0b0000000000000101 = .ok (.pen false) := by decide
theorem test_decode_wen : decode 0b0000000100000110 = .ok (.wen true) ∧ decode 0b0000000000000110 = .ok (.wen false) := by decide
theorem test_decode_again : decode 0b0111100000000111 = .ok (.again 120) ∧ decode 0xFF07 = .ok (.again 255) := by decide
theorem test_decode_pgain : decode 0b0000010000001000 = .ok (.pgain 4) ∧ decode 0x0008 = .ok (.pgain 0) := by decide
theorem test_decode_rdals : decode 0b0000000000001001 = .ok .rdals := by decide
theorem test_decode_rdprox : decode 0b0000000000001010 = .ok .rdprox := by decide
/-- V-DEC-01, -06, -07, -09, -13. -/
theorem test_decode_illegal :
    decode 0x0000 = .error .reservedOpcode ∧ decode 0x000F = .error .reservedOpcode ∧ decode 0x0011 = .error .reservedField ∧
    decode 0x0101 = .error .operandNotAllowed ∧ decode 0xFF06 = .error .enableArgument := by decide
theorem test_table_word : decodeTableWord 16 0x7807 = some (.again 120) ∧ decodeTableWord 16 0x000B = none := by decide

/-! ### The assembler -/

/-- R80: case does not matter, hexadecimal numerals, comments. -/
theorem test_assemble_comment :
    assemble ['p', 'G', 'a', 'i', 'n', ' ', '0', 'x', '0', '4', ' ', ';', 'x'] = some 0x0408 := by decide
/-- R81: a gain by name, and R80: `true`. -/
theorem test_assemble_names :
    assemble ['A', 'G', 'A', 'I', 'N', ' ', 'A', 'G', 'A', 'I', 'N', '_', '1', '2', '0'] = some 0x7807 ∧
    assemble ['W', 'E', 'N', ' ', 't', 'r', 'u', 'e'] = some 0x0106 ∧ assemble ['R', 'D', 'A', 'L', 'S', ' ', '1'] = none := by decide

/-! ### The commands against the reference sensor -/

/-- L1-6, row PON. -/
theorem test_pon : refTrace .pon none (sensorWith [(0, 0xFE)]) =
    some [W1 0x00, R1 0xFE, W2 0xE0 0xFF, .settleReq, .settleDone] := by decide
/-- V-TF-03: the write fails: no settle. -/
theorem test_pon_fail : refTrace .pon (some 2) (sensorWith [(0, 0xFE)]) =
    some [W1 0x00, R1 0xFE, .bus 0x39 (.write [0xE0, 0xFF]) .fail] ∧
    refRegs .pon (some 2) (sensorWith [(0, 0xFE)]) = some (0x01, 0, 1, 8) := by decide
/-- L1-6, row POFF. -/
theorem test_poff : refTrace .poff none (sensorWith [(0, 0xFF)]) = some [W1 0x00, R1 0xFF, W2 0xE0 0xFE] := by decide
/-- V-ENA-03 and V-ENA-04, column `0xA5`. -/
theorem test_aen : refTrace (.aen true) none (sensorWith [(0, 0xA5)]) = some [W1 0x00, R1 0xA5, W2 0xE0 0xA7] ∧
    refTrace (.aen false) none (sensorWith [(0, 0xA5)]) = some [W1 0x00, R1 0xA5, W2 0xE0 0xA5] := by decide
/-- V-ENA-05 and V-ENA-06, column `0xA5`. -/
theorem test_pen : refTrace (.pen true) none (sensorWith [(0, 0xA5)]) = some [W1 0x00, R1 0xA5, W2 0xE0 0xA5] ∧
    refTrace (.pen false) none (sensorWith [(0, 0xA5)]) = some [W1 0x00, R1 0xA5, W2 0xE0 0xA1] := by decide
/-- V-ENA-07 and V-ENA-08, column `0xA5`. -/
theorem test_wen : refTrace (.wen true) none (sensorWith [(0, 0xA5)]) = some [W1 0x00, R1 0xA5, W2 0xE0 0xAD] ∧
    refTrace (.wen false) none (sensorWith [(0, 0xA5)]) = some [W1 0x00, R1 0xA5, W2 0xE0 0xA5] := by decide
/-- V-AG-03 and V-AG-09, column `0x2C` and `0xA5`. -/
theorem test_again : refTrace (.again 16) none (sensorWith [(0x0F, 0x2C)]) = some [W1 0x0F, R1 0x2C, W2 0xEF 0x2E] ∧
    refRegs (.again 16) none (sensorWith [(0x0F, 0x2C)]) = some (0x00, 0, 16, 8) ∧
    refTrace (.again 255) none (sensorWith [(0x0F, 0xA5)]) = some [W1 0x0F, R1 0xA5, W2 0xEF 0xA4] := by decide
/-- V-TF-04: a failed CONTROL write leaves ALS_GAIN at 1. -/
theorem test_again_fail : refRegs (.again 8) (some 2) (sensorWith [(0x0F, 0x2C)]) = some (0x01, 0, 1, 8) := by decide
/-- V-PG-03 and V-PG-06, column `0x2C` and `0xA5`. -/
theorem test_pgain : refTrace (.pgain 4) none (sensorWith [(0x0F, 0x2C)]) = some [W1 0x0F, R1 0x2C, W2 0xEF 0x28] ∧
    refRegs (.pgain 4) none (sensorWith [(0x0F, 0x2C)]) = some (0x00, 0, 1, 4) ∧
    refTrace (.pgain 3) none (sensorWith [(0x0F, 0xA5)]) = some [W1 0x0F, R1 0xA5, W2 0xEF 0xA1] := by decide
/-- V-PG-02 under the alternative keep mask `0x03`, column `0xA5`. -/
theorem test_pgain_alternative_mask : mergeProxCode 0x03 (proxSelect 2).1 0xA5 = 0x05 := by decide
/-- L1-4. -/
theorem test_rdals : refRegs .rdals none (sensorWith [(0x14, 0xE8), (0x15, 0x03), (0x16, 0x64), (0x01, 0xFF)]) =
    some (0x00, 10370360, 1, 8) := by decide
/-- V-TF-05. -/
theorem test_rdals_fail : refRegs .rdals (some 5) (sensorWith [(0x14, 0xE8), (0x15, 0x03), (0x16, 0x64), (0x01, 0xFF)]) =
    some (0x01, 0, 1, 8) := by decide
/-- V-ALS-07, V-ALS-08, V-ALS-09, V-ALS-10, V-ALS-13, V-ALS-16 and V-AT-05. -/
theorem test_lux : lux 1000 500 0xFF 1 = 1274000 ∧ lux 1000 445 0xFF 1 = 2191280 ∧ lux 1000 578 0xFF 1 = 0 ∧
    lux 65535 0 0xFF 1 = 834915900 ∧ lux 100 1000 0xFF 1 = 0 ∧ lux 40000 20000 0xC0 8 = 73365 ∧
    lux 1000 100 0xF8 1 = 987382 := by decide
/-- The same vectors on the 32-bit datapath of R118. -/
theorem test_lux32 : lux32 1000 500 0xFF 1 = 1274000 ∧ lux32 1000 578 0xFF 1 = 0 ∧ lux32 65535 0 0xFF 1 = 834915900 ∧
    lux32 100 1000 0xFF 1 = 0 ∧ lux32 40000 20000 0xC0 8 = 73365 := by decide
/-- V-ALS-11: truncation toward zero gives -35716 where floor would give -35717. -/
theorem test_iac2 : iac2 65535 65535 = -35716 ∧ iac1 65535 65535 = -56491 := by decide
/-- V-PX-02 and V-PX-08 (the byte order). -/
theorem test_rdprox : refRegs .rdprox none (sensorWith [(0x18, 0x20), (0x19, 0x03)]) = some (0x00, 100, 1, 8) ∧
    proxResult (littleEndian 0x00 0x01) 2 = 128 := by decide
/-- V-TF-06. -/
theorem test_rdprox_fail : refRegs .rdprox (some 1) (sensorWith [(0x18, 0x20), (0x19, 0x03)]) = some (0x01, 0, 1, 8) := by decide
/-- L1-7. -/
theorem test_init : refTrace .init none (sensorWith []) =
    some [W2 0xE1 0xF8, W2 0xE0 0x00, W2 0xE1 0xFF, W2 0xE2 0xFF, W2 0xE3 0xFF, W2 0xEC 0x22, W2 0xED 0x00, W2 0xEE 0x08,
      W2 0xEF 0x2C, W1 0x00, R1 0x00, W2 0xE0 0x02, W1 0x00, R1 0x02, W2 0xE0 0x03, .settleReq, .settleDone] := by decide
/-- L1-7, end state of the reference sensor. -/
theorem test_init_sensor : (refCommand .init none (sensorWith [])).2.reg.take 16 =
    [0x03, 0xFF, 0xFF, 0xFF, 0, 0, 0, 0, 0, 0, 0, 0, 0x22, 0x00, 0x08, 0x2C] := by decide
/-- V-TF-08: a failure at transaction 9: the nine writes stand (ENABLE 0x00), nothing else is known. -/
theorem test_init_fail_standing : (refTrace .init (some 9) (sensorWith [])).map standingWrites =
    some [(0, 0x00), (1, 0xFF), (2, 0xFF), (3, 0xFF), (0x0C, 0x22), (0x0D, 0x00), (0x0E, 0x08), (0x0F, 0x2C)] := by decide

/-! ### The issue protocol, reset and the transactions one by one -/

/-- V-RST-01. -/
theorem test_reset : State.reset.alsGain = 1 ∧ State.reset.proxGain = 8 ∧ State.reset.status = 0x00 ∧
    State.reset.result = 0 ∧ State.reset.seq = .idle ∧ State.reset.trace = [] := by decide
/-- V-ISS-01: an accepted word in flight shows `0x80`, with its first transaction on `bus_req`. -/
theorem test_issue : (nextOf (step (withEvents [.issue 0x000A]))).map (fun t => (statusPort t, busReqPort t)) =
    some (0x80, some (.write [0x18])) := by decide
/-- A block with PON in flight, waiting for its first answer, and events to come. -/
def ponInFlight (l : List Event) : State :=
  { State.reset with status := 0x80, seq := .busy .pon 0 [], schedule := l, answers := [.ok 0 0, .ok 0xFE 0, .ok 0 0] }
/-- V-ISS-02: the second word is recorded and the command in flight is unchanged. -/
theorem test_issue_while_busy : (nextOf (step (ponInFlight [.issue 0x0003]))).map (fun t => (t.fault, t.seq, t.status)) =
    some (some .issueWhileBusy, .busy .pon 0 [], 0x80) := by decide
/-- V-ISS-03: an ILLEGAL word leaves RESULT. -/
theorem test_illegal : (nextOf (step { withEvents [.call 0x000B] with result := 200 })).map (fun t => (t.status, t.result, t.trace)) =
    some (0x02, 200, []) := by decide
/-- V-RST-02: a reset in the settle wait: no completion code; nothing of the trace is lost. -/
theorem test_reset_in_settle :
    (nextOf (step { State.reset with status := 0x80, seq := .settling .pon, schedule := [.rst], trace := [W2 0xE0 0xFF] })).map
      (fun t => (t.status, t.seq, Memory.read (standingWrites t.trace) 0)) = some (0x00, .idle, some 0xFF) := by decide
/-- R171: a reset abandons the transaction in flight. -/
theorem test_reset_in_flight : (nextOf (step (ponInFlight [.rst]))).map (fun t => (t.trace, t.status, t.seq)) =
    some ([.abandoned 0x39 (.write [0x00])], 0x00, .idle) := by decide
/-- R27: one answered transaction. -/
theorem test_transport : (nextOf (step (ponInFlight [.transport]))).map (fun t => (t.trace, t.seq)) =
    some ([W1 0x00], .busy .pon 1 []) := by decide
theorem test_placed_word_runs : (nextOf (step ((withAnswers [.ok 0 0, .ok 0x20 0x03]).withFetchWord 16 0x000A))).map (fun t => (t.status, t.result)) =
    some (0x00, 100) := by decide
/-- The per-command family holds of a command (its lemma is cited, so that the tests see it). -/
theorem test_table_row : Laws.TableRow.Statement (.again 16) := Laws.TableRow.again 16

/-! ### Witnesses: for every statement with hypotheses, concrete values that meet them all -/

/-- Three answered transactions, the read returning `0xA5`. -/
def threeAnswers : State := withAnswers [.ok 0 0, .ok 0xA5 0, .ok 0 0]

/-- The first `k` transactions answered, the next one failing. -/
def failingAt (k : Nat) : State := withAnswers (List.replicate k (.ok 0xA5 0) ++ [.fail])

/-- Every transaction answered. -/
def allAnswers : State := withAnswers (List.replicate 32 (.ok 0xA5 0))

theorem failingAt_firstFailure : ∀ k, k < 15 → FirstFailure (failingAt k) k := by
  unfold FirstFailure AllAnswered Answered
  decide

theorem allAnswers_allAnswered : AllAnswered allAnswers 15 := by
  unfold AllAnswered Answered
  decide

/-- StepRunsTheDecodedCommand, PlacedWordIsRunNext, IssuedCommandIsInFlight, IllegalWordWritesOnlyStatus and
AtomicStepEqualsTransactionSteps. -/
theorem witness_ready : ∀ ev ∈ [Event.call 0x0107, .issue 0x0107, .call 0x000B, .issue 0x000B],
    (withEvents [ev]).seq = .idle ∧ busyBit (withEvents [ev]).status = false ∧ (withEvents [ev]).fault = none ∧
    (withEvents [ev]).schedule = ev :: [] ∧ decode 0x0107 = .ok (.again 1) ∧ decode 0x000B = .error .reservedOpcode := by decide

/-- IssueWhileBusyIsRecorded, both ways to issue, in flight and settling. -/
theorem witness_issueWhileBusy : ∀ ev ∈ [Event.call 0x0003, .issue 0x0003], ∀ q ∈ [Seq.busy .pon 0 [], .settling .pon],
    let s := { ponInFlight [ev] with seq := q }
    s.seq ≠ .idle ∧ busyBit s.status = true ∧ s.schedule = ev :: [] := by decide

/-- RecordedFaultIsKeptAndStopsTheRun, its two clauses. -/
theorem witness_recordedFault :
    (∃ t, step { ponInFlight [.transport] with fault := some .issueWhileBusy } = .next t) ∧
    ({ State.reset with fault := some .issueWhileBusy } : State).seq = .idle :=
  ⟨⟨_, rfl⟩, rfl⟩

/-- IdleBlockWaitsForTheHost. -/
theorem witness_idle : threeAnswers.seq = .idle ∧ threeAnswers.fault = none ∧ threeAnswers.schedule = [] := by decide

/-- ResetAbandonsTheCommand: idle, in flight with a recorded fault, settling. -/
theorem witness_reset : ∀ s ∈ [withEvents [.rst], { ponInFlight [.rst] with fault := some .issueWhileBusy },
      { ponInFlight [.rst] with seq := .settling .pon }],
    (s.seq = .idle → s.fault = none) ∧ s.schedule = .rst :: [] := by decide

/-- MemWriteSendsFlaggedOffsetAndValue, MemReadByteSelectsThenReads, MemReadPairIsLittleEndian: every clause. -/
theorem witness_microOperations : threeAnswers.drawAt 0 = .ok 0 0 ∧ threeAnswers.drawAt 1 = .ok 0xA5 0 ∧
    (failingAt 0).drawAt 0 = .fail ∧ (failingAt 1).drawAt 0 = .ok 0xA5 0 ∧ (failingAt 1).drawAt 1 = .fail := by decide

/-- PonSetsPowerBitThenSettles, PoffClearsPowerBit, AenUpdatesAlsEnableBit, PenUpdatesProximityEnableBit,
WenUpdatesWaitEnableBit, AgainMergesCodeAndRecordsMultiplier, PgainMergesCodeAndRecordsMultiplier: the answered clause
(`failingAt_firstFailure` meets the failing one). -/
theorem witness_threeTransactions : threeAnswers.drawAt 0 = .ok 0 0 ∧ threeAnswers.drawAt 1 = .ok 0xA5 0 ∧
    threeAnswers.drawAt 2 = .ok 0 0 := by decide

/-- The selector cases of AGAIN and PGAIN: each recognised selector, and 0, 2 or 3, and 255. -/
theorem witness_selectors :
    (∀ sel ∈ [(0 : Byte), 2, 255], sel ≠ 1 ∧ sel ≠ 8 ∧ sel ≠ 16 ∧ sel ≠ 120) ∧
    (∀ sel ∈ [(0 : Byte), 3, 255], sel ≠ 1 ∧ sel ≠ 2 ∧ sel ≠ 4 ∧ sel ≠ 8) := by decide

/-- RdalsComputesTheAlsValue, RdproxDividesByTheRecordedGain, InitIssuesItsFifteenTransactions: the answered clause. -/
theorem witness_readings : allAnswers.alsGain ≠ 0 ∧ allAnswers.proxGain ≠ 0 ∧
    (∀ k, k < 15 → allAnswers.drawAt k = .ok 0xA5 0) := by decide

/-- TransportFailureEndsTheCommand at the last transaction of every command. -/
theorem witness_failureIsInTheCommand : ∀ i ∈ [Instr.init, .pon, .poff, .aen true, .pen false, .wen true, .again 8, .pgain 4, .rdals, .rdprox],
    txnCount i - 1 < (plannedRequests i (failingAt (txnCount i - 1)).drawAt).length := by decide

/-- ControlCommandOwnsOneBit and GainCommandsMergeTheirField. -/
theorem witness_updateCompletes : ∀ i ∈ [Instr.pon, .poff, .aen true, .aen false, .pen true, .pen false, .wen true, .wen false, .again 16, .pgain 4],
    threeAnswers.drawAt 1 = .ok 0xA5 0 ∧ (nextOf (exec i threeAnswers)).map (fun t => t.status) = some 0x00 := by decide

/-- ControlCommandsAreIdempotent: PON writes `0xA5` for `0xA5`, and the next read returns it. -/
theorem witness_idempotent : ∃ t u, exec .pon allAnswers = .next t ∧ exec .pon t = .next u ∧
    allAnswers.drawAt 1 = .ok 0xA5 0 ∧ t.status = 0x00 ∧ W2 0xE0 0xA5 ∈ t.trace.drop allAnswers.trace.length ∧
    t.drawAt 1 = .ok 0xA5 0 ∧ u.status = 0x00 :=
  ⟨_, _, rfl, rfl, by decide⟩

/-- InitLeavesTheGainStale. -/
theorem witness_staleGain : ∃ t u, exec (.again 16) allAnswers = .next t ∧ exec .init t = .next u ∧
    t.status = 0x00 ∧ u.status = 0x00 :=
  ⟨_, _, rfl, rfl, by decide⟩

/-- RoundingDirectionIsAbsorbedByTheClamp: a negative dividend that is not a multiple of 1000, one that is, and a positive
one. -/
theorem witness_rounding : iac2Dividend 1000 578 = -198 ∧ iac2Dividend 0 1000 = -1291000 ∧ iac2Dividend 1000 0 = 746000 := by decide

/-- ConversionRanges and SignedWordDatapathIsExact. -/
theorem witness_legalGains : LegalAlsGain 120 ∧ LegalProxGain 8 := by
  unfold LegalAlsGain LegalProxGain
  decide

/-- AnsweredTransactionAdvances, for a write and for a read. -/
theorem witness_answeredTransaction : ∀ p ∈ [(0, BusReq.write [0x00]), (1, .read 1)],
    let s := { ponInFlight [.transport] with seq := .busy .pon p.1 [] }
    busReqPort s = some p.2 ∧ s.schedule = .transport :: [] ∧ s.drawAt 0 = .ok 0 0 ∧ p.1 + 1 < txnCount .pon := by decide

/-- FailedTransactionInFlightCompletes. -/
theorem witness_failedTransaction :
    let s := { ponInFlight [.transport] with seq := .busy .pon 1 [], answers := [.fail] }
    busReqPort s = some (.read 1) ∧ s.schedule = .transport :: [] ∧ s.drawAt 0 = .fail := by decide

/-- SettleWaitEndsWithTheTimer, its two clauses. -/
theorem witness_settling : ∀ ev ∈ [Event.transport, .settleDone],
    let s := { ponInFlight [ev] with seq := .settling .pon }
    s.seq = .settling .pon ∧ s.schedule = ev :: [] := by decide

/-- StepKeepsTheInvariant: PON in flight, its first transaction answered. -/
theorem witness_invariant : Inv (ponInFlight [.transport]) ∧ ∃ t, step (ponInFlight [.transport]) = .next t := by
  refine ⟨⟨?_, ?_, ?_, ?_, ?_⟩, ⟨_, rfl⟩⟩
  · unfold LegalAlsGain; decide
  · unfold LegalProxGain; decide
  · change (0x80 : Byte) = 0x80; rfl
  · decide
  · change 0 < 3 ∧ 0 = 0; decide

/-- StepKeepsTheBusDiscipline: PON in flight, its read selected and pending. -/
theorem witness_busDiscipline :
    let s := { ponInFlight [.transport] with seq := .busy .pon 1 [], trace := [W1 0x00] }
    BusInv s ∧ ∃ t, step s = .next t := by
  refine ⟨⟨⟨?_, ?_⟩, ?_, ?_⟩, ⟨_, rfl⟩⟩
  · intro e he
    obtain rfl := List.mem_singleton.mp he
    exact ⟨rfl, .inl ⟨.enable, rfl, .inl (.inl rfl)⟩, .inr ⟨[], rfl, .inl ⟨_, rfl, rfl⟩⟩⟩
  · intro before e rest n h hr
    have he : e ∈ [W1 0x00] := by rw [show [W1 0x00] = before ++ e :: rest from h]; simp
    obtain rfl := List.mem_singleton.mp he
    exact absurd hr (by simp [readCount, W1])
  · intro n h
    have hn : some (BusReq.read 1) = some (.read n) := h
    obtain rfl : n = 1 := by simpa using hn.symm
    exact ⟨[], W1 0x00, rfl, .enable, rfl, .inl ⟨rfl, .inl rfl⟩⟩
  · exact ⟨by decide, by decide⟩

/-- OnlyTheOwnersWriteARegister, OnlyRdalsReadsAlsGain, OnlyRdproxReadsProxGain: every command, and a gain, PROX_GAIN and
RESULT that do change. -/
theorem witness_owners :
    (∀ i ∈ [Instr.init, .pon, .poff, .aen true, .pen true, .wen true, .again 8, .pgain 4, .rdals, .rdprox],
      (nextOf (exec i allAnswers)).isSome = true ∧ (nextOf (exec i { allAnswers with alsGain := 16 })).isSome = true) ∧
    (nextOf (exec (.again 8) allAnswers)).map (fun t => t.alsGain) = some 8 ∧
    (nextOf (exec (.pgain 4) allAnswers)).map (fun t => t.proxGain) = some 4 ∧
    (nextOf (exec .rdprox allAnswers)).map (fun t => t.result) = some 20 := by decide

/-- AlsGainChangesOnlyByAgainOrReset: each of the three ways. -/
theorem witness_alsGainChanges :
    (nextOf (step { withEvents [.rst] with alsGain := 8 })).map (fun t => t.alsGain) = some 1 ∧
    (nextOf (step { withEvents [.call 0x0807] with answers := allAnswers.answers })).map (fun t => t.alsGain) = some 8 ∧
    (nextOf (step { ponInFlight [.transport] with seq := .busy (.again 8) 2 [0x00A5] })).map (fun t => t.alsGain) = some 8 := by
  decide

/-- TraceOnlyGrows: a step that adds to the trace. -/
theorem witness_traceGrows : (nextOf (step (ponInFlight [.transport]))).map (fun t => t.trace.length) = some 1 := by decide

/-- InitWritesStand. -/
theorem witness_initStands : allAnswers.drawAt 13 = .ok 0xA5 0 ∧
    (nextOf (exec .init allAnswers)).map (fun t => t.status) = some 0x00 := by decide

/-- FailedInitLeavesEarlierWrites: the state may accept INIT and the step gives a next state, at the first transaction, a select
and the last (`failingAt_firstFailure` meets the rest). -/
theorem witness_failedInit : ∀ k ∈ [0, 9, 14], let s := { failingAt k with schedule := [.call 0x0001] }
    s.seq = .idle ∧ busyBit s.status = false ∧ s.fault = none ∧ s.schedule = .call 0x0001 :: [] ∧
    (nextOf (step s)).map (fun t => t.status) = some 0x01 := by decide +kernel

/-- FailedUpdateLeavesOneRegisterUnknown: a control and a gain command. -/
theorem witness_failedUpdate : ∀ k ∈ [0, 1, 2], ∀ p ∈ [((0x0002 : Word), Instr.pon), (0x0807, .again 8)],
    let s := { failingAt k with schedule := [.call p.1] }
    s.seq = .idle ∧ busyBit s.status = false ∧ s.fault = none ∧ s.schedule = .call p.1 :: [] ∧ decode p.1 = .ok p.2 ∧
    (nextOf (step s)).map (fun t => t.status) = some 0x01 := by decide +kernel

/-- ReferenceSensorAnswersEveryCommand. -/
theorem witness_referenceSensor :
    (withAnswers (refCommand .init none (sensorWith [])).1).answers = (refCommand .init none (sensorWith [])).1 ++ [] := by
  simp [withAnswers]

end Sys2Proof.Tests
end

/-! The micro-operations of `20_memory.md` (R51 to R53). Each memory access is one or two transactions from one state;
the lemmas below write the trace entries out byte by byte and collect the transactions into `after`, whose equation
`after_eq` is the record update the statements give. -/

namespace Sys2Proof.Proofs

open Sys2Proof.Machine Sys2Proof.Safety Sys2Proof.Laws

/-! ### Trace entries written out -/

/-- R52: an answered select. -/
@[simp] theorem busEvent_selectReq_ok (r : SensorReg) (a b : Byte) : busEvent (selectReq r) (.ok a b) = W1 r.offset := rfl

/-- R51: an answered register write. -/
@[simp] theorem busEvent_writeReq_ok (r : SensorReg) (v a b : Byte) :
    busEvent (writeReq r v) (.ok a b) = W2 (r.offset ||| 0xE0) v := rfl

/-- R52: an answered 1-byte read. -/
@[simp] theorem busEvent_read1_ok (e x : Byte) : busEvent (.read 1) (.ok e x) = R1 e := rfl

/-- R53: an answered 2-byte read. -/
@[simp] theorem busEvent_read2_ok (lo hi : Byte) : busEvent (.read 2) (.ok lo hi) = R2 lo hi := rfl

/-- R50: a failed transaction, whatever it asks for. -/
@[simp] theorem busEvent_fail (req : BusReq) : busEvent req .fail = .bus 0x39 req .fail := rfl

/-! ### Transactions collected from one state -/

/-- The first transaction of a run. -/
theorem transact_eq_after (req : BusReq) (s : State) : transact req s = after s 1 [busEvent req (s.drawAt 0)] := rfl

/-- R52, R53: a read after an answered select. -/
theorem transact_read_after_select {r : SensorReg} {s : State} {a b : Byte} (h0 : s.drawAt 0 = .ok a b) (n : Nat) :
    transact (.read n) (transact (selectReq r) s) = after s 2 [W1 r.offset, busEvent (.read n) (s.drawAt 1)] := by
  rw [transact_eq_after (selectReq r), transact_after, h0, busEvent_selectReq_ok, List.singleton_append]

/-- R52, R53: a failed select. -/
theorem transact_select_fail {r : SensorReg} {s : State} (h0 : s.drawAt 0 = .fail) :
    transact (selectReq r) s = after s 1 [.bus 0x39 (.write [r.offset]) .fail] := by
  rw [transact_eq_after, h0, busEvent_fail, selectReq]

/-! ### The statements -/

/-- Settles O16: a register write is one transaction, answered or failed. -/
theorem memWriteSendsFlaggedOffsetAndValue : Obligations.MemWriteSendsFlaggedOffsetAndValue := by
  intro r v s
  refine ⟨fun a b h0 => ?answered, fun h0 => ?failed⟩
  case answered => rw [memWrite_ok h0, transact_eq, h0, busEvent_writeReq_ok]
  case failed => rw [memWrite_fail h0, transact_eq, h0, busEvent_fail, writeReq, autoIncrement]

/-- Settles O17: the outcomes of the select and of the read decide the case. -/
theorem memReadByteSelectsThenReads : Obligations.MemReadByteSelectsThenReads := by
  intro r s
  refine ⟨fun a b e x h0 h1 => ?answered, fun a b h0 h1 => ?readFailed, fun h0 => ?selectFailed⟩
  case answered => rw [memRead1_ok h0 h1, transact_read_after_select h0, h1, busEvent_read1_ok, after_eq]
  case readFailed => rw [memRead1_read_fail h0 h1, transact_read_after_select h0, h1, busEvent_fail, after_eq]
  case selectFailed => rw [memRead1_select_fail h0, transact_select_fail h0, after_eq]

/-- Settles O18: the cases of the 1-byte read, with `littleEndian_toNat` (R53) for the value. -/
theorem memReadPairIsLittleEndian : Obligations.MemReadPairIsLittleEndian := by
  intro r s
  refine ⟨fun a b lo hi h0 h1 => ⟨littleEndian lo hi, littleEndian_toNat lo hi, ?answered⟩,
    fun a b h0 h1 => ?readFailed, fun h0 => ?selectFailed⟩
  case answered => rw [memRead2_ok h0 h1, transact_read_after_select h0, h1, busEvent_read2_ok, after_eq]
  case readFailed => rw [memRead2_read_fail h0 h1, transact_read_after_select h0, h1, busEvent_fail, after_eq]
  case selectFailed => rw [memRead2_select_fail h0, transact_select_fail h0, after_eq]

end Sys2Proof.Proofs

/-! The command words of `30_encoding.md` (R70 to R83). The decoder gives back the command of every encoded word
(`decode_encode`), and a line that is one word assembles as the mnemonic it spells (`assemble_oneWord`); the lists of
R82 and R83 are read off from these two. -/

namespace Sys2Proof.Proofs

open Sys2Proof.Machine

/-! ### The decoder on encoded words -/

/-- R70: the three fields of a word do not overlap. -/
@[simp] theorem fieldsOf_wordOf (f : CommandFields) : fieldsOf (wordOf f) = f := by
  obtain ⟨arg, rsv, op⟩ := f
  have harg : (arg ++ rsv ++ op).extractLsb' 8 8 = arg := by
    rw [BitVec.extractLsb'_append_eq_of_le (by decide), BitVec.extractLsb'_append_eq_left]
  have hrsv : (arg ++ rsv ++ op).extractLsb' 4 4 = rsv := by
    rw [BitVec.extractLsb'_append_eq_of_le (by decide), BitVec.extractLsb'_append_eq_right]
  have hop : (arg ++ rsv ++ op).extractLsb' 0 4 = op := BitVec.extractLsb'_append_eq_right
  simp only [fieldsOf, wordOf, harg, hrsv, hop]

/-- R78: with the reserved field 0, the opcode and its operand decide. -/
@[simp] theorem decode_wordOf (arg : Byte) (op : BitVec 4) :
    decode (wordOf { arg := arg, rsv := 0, op := op }) = decodeOpcode op arg := by
  simp [decode]

/-- R72: `ARG[0]` carries the enable flag. -/
@[simp] theorem decodeEnable_enableArg (en : Bool) (i : Bool → Instr) :
    decodeEnable (enableArg en) i = .ok (i en) := by
  cases en <;> rfl

/-- R71, R72: the opcode and the operand of a command name that command. -/
theorem decodeOpcode_opcode_arg (i : Instr) : decodeOpcode i.opcode i.arg = .ok i := by
  cases i with
  | init | pon | poff | rdals | rdprox => rfl
  | again sel | pgain sel => rfl
  | aen en => exact decodeEnable_enableArg en .aen
  | pen en => exact decodeEnable_enableArg en .pen
  | wen en => exact decodeEnable_enableArg en .wen

/-- R78: the word of a command decodes to that command. -/
@[simp] theorem decode_encode (i : Instr) : decode (encode i) = .ok i := by
  rw [encode, decode_wordOf, decodeOpcode_opcode_arg]

/-- R78: a word decodes to the command whose word it is. -/
theorem decode_of_encode_eq {w : Word} {i : Instr} (h : encode i = w) : decode w = .ok i := h ▸ decode_encode i

/-- Settles O1: every word of the list is the encoding of its command (`decode_of_encode_eq`). -/
theorem listedWordsDecode : Obligations.ListedWordsDecode := by
  unfold Obligations.ListedWordsDecode
  and_intros <;> exact decode_of_encode_eq rfl

/-! ### The assembler on a line of one word -/

/-- R80: without a blank the whole line is the mnemonic. -/
theorem splitCommand_of_noBlank (l : List Char) (h : ' ' ∉ l) : splitCommand l = (l, none) := by
  induction l with
  | nil => rfl
  | cons c rest ih =>
    obtain ⟨hc, hrest⟩ : ' ' ≠ c ∧ ' ' ∉ rest := by simpa using h
    simp [splitCommand, hc.symm, ih hrest]

/-- Without a blank nothing is dropped at the end. -/
theorem dropTrailingBlanks_of_noBlank (l : List Char) (h : ' ' ∉ l) : dropTrailingBlanks l = l := by
  have hlast : (l.reverse.dropWhile fun c => c == ' ') = l.reverse :=
    List.dropWhile_eq_self_iff.mpr fun hl hc =>
      h (eq_of_beq hc ▸ List.mem_reverse.mp (List.getElem_mem hl))
  rw [dropTrailingBlanks, hlast, List.reverse_reverse]

/-- R80: without a `;` there is no comment to drop. -/
theorem dropComment_of_noSemicolon (l : List Char) (h : ';' ∉ l) : dropComment l = l :=
  List.takeWhile_eq_self_iff.mpr fun _ hc => bne_iff_ne.mpr (ne_of_mem_of_not_mem hc h)

/-- R80: a line of one word, in any case, has the word of its mnemonic without an operand. -/
theorem assemble_oneWord {l mnemonic : List Char} {w : Word} (hword : asmCommand mnemonic none = some w)
    (hcase : l.map lowerChar = mnemonic) (hcomment : ';' ∉ l) (hblank : ' ' ∉ mnemonic) : assemble l = some w := by
  rw [assemble, dropComment_of_noSemicolon l hcomment, hcase, dropTrailingBlanks_of_noBlank mnemonic hblank,
    splitCommand_of_noBlank mnemonic hblank, hword]

/-- R82: an enable mnemonic without an operand is the enable command with the flag set. -/
theorem asmCommand_enable_none :
    asmCommand ['a', 'e', 'n'] none = some (encode (.aen true)) ∧
    asmCommand ['p', 'e', 'n'] none = some (encode (.pen true)) ∧
    asmCommand ['w', 'e', 'n'] none = some (encode (.wen true)) := ⟨rfl, rfl, rfl⟩

/-- R82: a disable mnemonic is the enable command with the flag clear. -/
theorem asmCommand_disable_none :
    asmCommand ['a', 'd', 'i', 's'] none = some (encode (.aen false)) ∧
    asmCommand ['p', 'd', 'i', 's'] none = some (encode (.pen false)) ∧
    asmCommand ['w', 'd', 'i', 's'] none = some (encode (.wen false)) := ⟨rfl, rfl, rfl⟩

/-- Settles O6: each line is one word (`assemble_oneWord`), and its mnemonic is an enable command with a fixed flag. -/
theorem pseudoInstructionWords : Obligations.PseudoInstructionWords := by
  obtain ⟨haen, hpen, hwen⟩ := asmCommand_enable_none
  obtain ⟨hadis, hpdis, hwdis⟩ := asmCommand_disable_none
  refine ⟨?aen, ?pen, ?wen, ?adis, ?pdis, ?wdis⟩
  case aen => exact assemble_oneWord haen rfl (by simp) (by simp)
  case pen => exact assemble_oneWord hpen rfl (by simp) (by simp)
  case wen => exact assemble_oneWord hwen rfl (by simp) (by simp)
  case adis => exact assemble_oneWord hadis rfl (by simp) (by simp)
  case pdis => exact assemble_oneWord hpdis rfl (by simp) (by simp)
  case wdis => exact assemble_oneWord hwdis rfl (by simp) (by simp)

end Sys2Proof.Proofs

/-! The control commands of `41_control.md` (R90 to R97). Each is `UpdateEnable` of one bit of ENABLE, and PON alone then
waits for the settle timer: `ControlCommand` says which bit, `settleEvents` whether it waits. What one of them leaves when
its transactions are answered (`exec_control_answered`) and when one fails (`exec_control_failed`) is proved once for all
of them. -/

namespace Sys2Proof.Proofs

open Sys2Proof.Machine Sys2Proof.Safety Sys2Proof.Laws

/-! ### The outcomes of the next transactions -/

/-- R141: either the next `n` transactions are all answered, or one of them is the first to fail. -/
theorem allAnswered_or_firstFailure (s : State) (n : Nat) : AllAnswered s n ∨ ∃ k, k < n ∧ FirstFailure s k := by
  induction n with
  | zero => exact .inl fun j hj => absurd hj (Nat.not_lt_zero j)
  | succ n ih =>
    obtain hall | ⟨k, hk, hfirst⟩ := ih
    · by_cases hn : s.drawAt n = .fail
      · exact .inr ⟨n, Nat.lt_succ_self n, hall, hn⟩
      · refine .inl fun j hj => ?_
        obtain hlt | rfl := Nat.lt_succ_iff_lt_or_eq.mp hj
        · exact hall j hlt
        · exact hn
    · exact .inr ⟨k, Nat.lt_succ_of_lt hk, hfirst⟩

/-- R50: an answered transaction carries two bytes. -/
theorem drawAt_ok_of_allAnswered {s : State} {n j : Nat} (h : AllAnswered s n) (hj : j < n) :
    ∃ a b, s.drawAt j = .ok a b := by
  cases hd : s.drawAt j with
  | ok a b => exact ⟨a, b, rfl⟩
  | fail => exact absurd hd (h j hj)

/-- R154: the entry a transcript lists for a transaction is the one the bus logs for it. -/
@[simp] theorem answeredBy_eq_busEvent (req : BusReq) (d : Draw) : answeredBy req d = busEvent req d := by
  cases d <;> cases req <;> rfl

/-! ### The byte written back -/

/-- R90: a set ORs the mask in. -/
@[simp] theorem enableUpdate_set (mask e : Byte) : enableUpdate mask true e = e ||| mask := rfl

/-- R90: a clear ANDs the complement of the mask in; its 8-bit cut of the complement cuts nothing from a byte. -/
@[simp] theorem enableUpdate_clear (mask e : Byte) : enableUpdate mask false e = e &&& ~~~mask :=
  congrArg (e &&& ·) BitVec.and_allOnes

/-- R97: every bit outside the mask is the bit read. -/
theorem enableUpdate_and_not_mask (mask : Byte) (set : Bool) (e : Byte) :
    enableUpdate mask set e &&& ~~~mask = e &&& ~~~mask := by
  cases set with
  | true => ext j hj; simp [Bool.and_or_distrib_right]
  | false => rw [enableUpdate_clear, BitVec.and_assoc, BitVec.and_self]

/-- R97: the bits of the mask are set or cleared as asked. -/
theorem enableUpdate_and_mask (mask : Byte) (set : Bool) (e : Byte) :
    enableUpdate mask set e &&& mask = if set then mask else 0 := by
  cases set with
  | true => ext j hj; simp +contextual
  | false => ext j hj; simp

/-- R96: updating a byte that has been updated leaves it as it is. -/
theorem enableUpdate_idem (mask : Byte) (set : Bool) (e : Byte) :
    enableUpdate mask set (enableUpdate mask set e) = enableUpdate mask set e := by
  cases set with
  | true => simp only [enableUpdate_set, BitVec.or_assoc, BitVec.or_self]
  | false => simp only [enableUpdate_clear, BitVec.and_assoc, BitVec.and_self]

/-! ### UpdateEnable -/

/-- R90: the three transactions of `UpdateEnable`, for the answers `d`. -/
def updateEnableRequests (mask : Byte) (set : Bool) (d : Nat → Draw) : List BusReq :=
  [selectReq .enable, .read 1, writeReq .enable (enableUpdate mask set (byteOf (d 1)))]

/-- R154: the trace entries the transcript lists for the three transactions. -/
theorem transcript_updateEnableRequests (mask : Byte) (set : Bool) (d : Nat → Draw) :
    transcript (updateEnableRequests mask set d) d = [busEvent (selectReq .enable) (d 0), busEvent (.read 1) (d 1),
      busEvent (writeReq .enable (enableUpdate mask set (byteOf (d 1)))) (d 2)] := by
  simp [transcript, updateEnableRequests, List.range_succ]

/-- R90: the trace entries of an answered `UpdateEnable` that reads `e`. -/
def updateEnableEvents (mask : Byte) (set : Bool) (e : Byte) : List TraceEvent :=
  [W1 0x00, R1 e, W2 0xE0 (enableUpdate mask set e)]

/-- R90: an answered `UpdateEnable`. -/
theorem updateEnable_answered (mask : Byte) (set : Bool) {s : State} {a b e x c d : Byte}
    (h0 : s.drawAt 0 = .ok a b) (h1 : s.drawAt 1 = .ok e x) (h2 : s.drawAt 2 = .ok c d) :
    updateEnable mask set s = .done () (after s 3 (updateEnableEvents mask set e)) := by
  rw [updateEnable_ok h0 h1 h2, transact_read_after_select h0, transact_after, h1, h2, busEvent_read1_ok,
    busEvent_writeReq_ok]
  rfl

/-- R90, R141: an `UpdateEnable` whose transaction `k` is the first to fail. -/
theorem updateEnable_failed (mask : Byte) (set : Bool) {s : State} {k : Nat} (hk : k < 3) (h : FirstFailure s k) :
    updateEnable mask set s = .failed (after s (k + 1)
      ((transcript (updateEnableRequests mask set s.drawAt) s.drawAt).take (k + 1))) := by
  obtain ⟨hbefore, hfail⟩ := h
  rw [transcript_updateEnableRequests]
  match k with
  | 0 =>
    rw [updateEnable, memRead1_select_fail hfail, andThen_failed, transact_eq_after]
    rfl
  | 1 =>
    obtain ⟨a, b, h0⟩ := drawAt_ok_of_allAnswered hbefore (show 0 < 1 by omega)
    rw [updateEnable, memRead1_read_fail h0 hfail, andThen_failed, transact_eq_after (selectReq .enable), transact_after]
    rfl
  | 2 =>
    obtain ⟨a, b, h0⟩ := drawAt_ok_of_allAnswered hbefore (show 0 < 2 by omega)
    obtain ⟨e, x, h1⟩ := drawAt_ok_of_allAnswered hbefore (show 1 < 2 by omega)
    have he : byteOf (s.drawAt 1) = e := by rw [h1]; rfl
    rw [updateEnable, memRead1_ok h0 h1, andThen_done, memWrite_fail (by simpa using hfail),
      transact_eq_after (selectReq .enable), transact_after, transact_after, he]
    rfl

/-! ### The settle wait -/

/-- R91, R150: the trace entries of the settle wait of a command, none for a command without one. -/
def settleEvents (i : Instr) : List TraceEvent := if settles i then [.settleReq, .settleDone] else []

/-- R150: the settle wait, if the command has one, adds its entries and uses up no draw. -/
theorem settleWait_after (i : Instr) (s : State) (n : Nat) (evs : List TraceEvent) :
    (if settles i then settle (after s n evs) else .done () (after s n evs)) =
      .done () (after s n (evs ++ settleEvents i)) := by
  cases h : settles i <;> simp [settleEvents, settle, h]

/-- A part of a command that is followed by nothing. -/
theorem andThen_return (r : Res Unit) : (r.andThen fun _ s => .done () s) = r := by
  cases r <;> rfl

/-! ### The control commands, all at once -/

/-- R91 to R95: the command is `UpdateEnable` of this mask. -/
inductive ControlCommand : Instr → Byte → Bool → Prop
  | pon : ControlCommand .pon maskPON true
  | poff : ControlCommand .poff maskPON false
  | aen (en : Bool) : ControlCommand (.aen en) maskAEN en
  | pen (en : Bool) : ControlCommand (.pen en) maskPEN en
  | wen (en : Bool) : ControlCommand (.wen en) maskWEN en

section
variable {i : Instr} {mask : Byte} {set : Bool} (hi : ControlCommand i mask set)
include hi

/-- R96: of the control commands PON alone settles. -/
theorem ControlCommand.settleEvents_eq : settleEvents i = if i = .pon then [.settleReq, .settleDone] else [] := by
  cases hi <;> rfl

/-- R91 to R95: `UpdateEnable`, then the settle wait if the command has one. -/
theorem ControlCommand.exec_eq (s : State) : exec i s = .next (finish ((updateEnable mask set s).andThen fun _ s =>
    if settles i then settle s else .done () s)) := by
  cases hi with
  | pon => rfl
  | poff | aen | pen | wen => exact (congrArg (fun r => Host.Outcome.next (finish r)) (andThen_return _)).symm

/-- R91 to R95: the spec's transaction list of the command is that of its `UpdateEnable`. -/
theorem ControlCommand.plannedRequests_eq (d : Nat → Draw) : plannedRequests i d = updateEnableRequests mask set d := by
  cases hi with
  | pon | poff => rfl
  | aen | pen | wen => cases set <;> rfl

/-- R91 to R95: a control command whose transactions are answered. -/
theorem exec_control_answered {s : State} {a b e x c d : Byte}
    (h0 : s.drawAt 0 = .ok a b) (h1 : s.drawAt 1 = .ok e x) (h2 : s.drawAt 2 = .ok c d) :
    exec i s = .next { s.skipDraws 3 with
      status := 0x00, seq := .idle, trace := s.trace ++ (updateEnableEvents mask set e ++ settleEvents i) } := by
  rw [hi.exec_eq, updateEnable_answered mask set h0 h1 h2, andThen_done, settleWait_after, finish_done,
    complete_ok_eq, after_eq]

/-- R141: a control command whose transaction `k` is the first to fail, with no settle wait. -/
theorem exec_control_failed {s : State} {k : Nat} (hk : k < 3) (h : FirstFailure s k) :
    exec i s = .next (failedRun i s k) := by
  rw [hi.exec_eq, updateEnable_failed mask set hk h, andThen_failed, finish_failed, raiseTransportFailure_eq, after_eq,
    failedRun, commandTranscript, hi.plannedRequests_eq]

/-- R140: a control command that completes with OK has run its whole `UpdateEnable` and its settle wait. -/
theorem trace_of_exec_control_ok {s t : State} {e x : Byte} (h1 : s.drawAt 1 = .ok e x) (hexec : exec i s = .next t)
    (hok : t.status = 0x00) : t.trace = s.trace ++ (updateEnableEvents mask set e ++ settleEvents i) := by
  obtain hall | ⟨k, hk, hfirst⟩ := allAnswered_or_firstFailure s 3
  · obtain ⟨a, b, h0⟩ := drawAt_ok_of_allAnswered hall (show 0 < 3 by omega)
    obtain ⟨c, d, h2⟩ := drawAt_ok_of_allAnswered hall (show 2 < 3 by omega)
    rw [exec_control_answered hi h0 h1 h2] at hexec
    cases hexec
    rfl
  · rw [exec_control_failed hi hk hfirst] at hexec
    cases hexec
    simp [failedRun] at hok

end

/-! ### The statements -/

/-- Settles O20: PON is the control command of the power bit that settles. -/
theorem ponSetsPowerBitThenSettles : Obligations.PonSetsPowerBitThenSettles :=
  ⟨rfl, fun _ _ _ _ _ _ _ h0 h1 h2 => exec_control_answered .pon h0 h1 h2,
    fun _ _ hk h => exec_control_failed .pon hk h⟩

/-- Settles O21: POFF clears the power bit, and its `settleEvents` are none. -/
theorem poffClearsPowerBit : Obligations.PoffClearsPowerBit :=
  ⟨rfl, fun _ _ _ _ _ _ _ h0 h1 h2 => exec_control_answered .poff h0 h1 h2,
    fun _ _ hk h => exec_control_failed .poff hk h⟩

/-- Settles O32: the byte written is `enableUpdate` of the byte read, which changes the bits of the mask only. -/
theorem controlCommandOwnsOneBit : Obligations.ControlCommandOwnsOneBit := by
  intro i mask target s t e x hcmd h1 hexec hok
  obtain ⟨set, hi, rfl⟩ : ∃ set, ControlCommand i mask set ∧ target = if set then mask else 0 := by
    obtain ⟨rfl, rfl, rfl⟩ | ⟨rfl, rfl, rfl⟩ | ⟨rfl, rfl, rfl⟩ | ⟨rfl, rfl, rfl⟩ | ⟨rfl, rfl, rfl⟩ | ⟨rfl, rfl, rfl⟩ |
      ⟨rfl, rfl, rfl⟩ | ⟨rfl, rfl, rfl⟩ := hcmd
    · exact ⟨_, .pon, rfl⟩
    · exact ⟨_, .poff, rfl⟩
    · exact ⟨_, .aen true, rfl⟩
    · exact ⟨_, .aen false, rfl⟩
    · exact ⟨_, .pen true, rfl⟩
    · exact ⟨_, .pen false, rfl⟩
    · exact ⟨_, .wen true, rfl⟩
    · exact ⟨_, .wen false, rfl⟩
  refine ⟨enableUpdate mask set e, settleEvents i, ?trace, ?settle, enableUpdate_and_not_mask mask set e,
    enableUpdate_and_mask mask set e⟩
  case trace => rw [trace_of_exec_control_ok hi h1 hexec hok, updateEnableEvents, List.append_assoc]
  case settle => cases h : settles i <;> simp [settleEvents, h]

/-- Settles O33: the byte written is the update of the byte read, and updating it again changes nothing
(`enableUpdate_idem`). -/
theorem controlCommandsAreIdempotent : Obligations.ControlCommandsAreIdempotent := by
  intro i s t u e n x y hcmd hs1 hexecs hoks hmem ht1 hexect hokt
  obtain ⟨mask, set, hi⟩ : ∃ mask set, ControlCommand i mask set := by
    obtain rfl | rfl | ⟨en, rfl⟩ | ⟨en, rfl⟩ | ⟨en, rfl⟩ := hcmd
    · exact ⟨_, _, .pon⟩
    · exact ⟨_, _, .poff⟩
    · exact ⟨_, _, .aen en⟩
    · exact ⟨_, _, .pen en⟩
    · exact ⟨_, _, .wen en⟩
  have hn : n = enableUpdate mask set e := by
    rw [trace_of_exec_control_ok hi hs1 hexecs hoks, List.drop_left] at hmem
    cases h : settles i <;> simpa [updateEnableEvents, settleEvents, h, W1, R1, W2] using hmem
  refine ⟨settleEvents i, ?trace, ?pon, ?other⟩
  case trace =>
    rw [trace_of_exec_control_ok hi ht1 hexect hokt, updateEnableEvents, hn, enableUpdate_idem, List.append_assoc]
  case pon => exact fun h => hi.settleEvents_eq.trans (if_pos h)
  case other => exact fun h => hi.settleEvents_eq.trans (if_neg h)

end Sys2Proof.Proofs

/-! The gain command AGAIN of `42_gain.md` (R100). It reads a register and writes a changed byte back
(`registerUpdate`), then records the multiplier. The two outcomes of `registerUpdate`, answered and failed, are proved for
any register and any change of the byte; AGAIN adds what its selector stands for (`alsSelect_eq`). -/

namespace Sys2Proof.Proofs

open Sys2Proof.Machine Sys2Proof.Safety Sys2Proof.Laws

/-! ### A register read, changed and written back -/

/-- R51, R52: register `r` is read and `f` of the byte read is written back to it. -/
def registerUpdate (r : SensorReg) (f : Byte → Byte) (s : State) : Res Unit :=
  (memRead1 r s).andThen fun c s => memWrite r (f c) s

/-- R51, R52: the three transactions of `registerUpdate`, for the answers `d`. -/
def registerUpdateRequests (r : SensorReg) (f : Byte → Byte) (d : Nat → Draw) : List BusReq :=
  [selectReq r, .read 1, writeReq r (f (byteOf (d 1)))]

/-- R154: the trace entries the transcript lists for the three transactions. -/
theorem transcript_registerUpdateRequests (r : SensorReg) (f : Byte → Byte) (d : Nat → Draw) :
    transcript (registerUpdateRequests r f d) d = [busEvent (selectReq r) (d 0), busEvent (.read 1) (d 1),
      busEvent (writeReq r (f (byteOf (d 1)))) (d 2)] := by
  simp [transcript, registerUpdateRequests, List.range_succ]

/-- An answered `registerUpdate`. -/
theorem registerUpdate_answered (r : SensorReg) (f : Byte → Byte) {s : State} {a b c x p q : Byte}
    (h0 : s.drawAt 0 = .ok a b) (h1 : s.drawAt 1 = .ok c x) (h2 : s.drawAt 2 = .ok p q) :
    registerUpdate r f s = .done () (after s 3 [W1 r.offset, R1 c, W2 (r.offset ||| 0xE0) (f c)]) := by
  rw [registerUpdate, memRead1_ok h0 h1, andThen_done, transact_read_after_select h0, h1, memWrite_ok (by simpa using h2),
    transact_after, h2, busEvent_read1_ok, busEvent_writeReq_ok]
  rfl

/-- R141: a `registerUpdate` whose transaction `k` is the first to fail. -/
theorem registerUpdate_failed (r : SensorReg) (f : Byte → Byte) {s : State} {k : Nat} (hk : k < 3)
    (h : FirstFailure s k) : registerUpdate r f s = .failed (after s (k + 1)
      ((transcript (registerUpdateRequests r f s.drawAt) s.drawAt).take (k + 1))) := by
  obtain ⟨hbefore, hfail⟩ := h
  rw [transcript_registerUpdateRequests]
  match k with
  | 0 => rw [registerUpdate, memRead1_select_fail hfail, andThen_failed, transact_eq_after]; rfl
  | 1 =>
    obtain ⟨a, b, h0⟩ := drawAt_ok_of_allAnswered hbefore (show 0 < 1 by omega)
    rw [registerUpdate, memRead1_read_fail h0 hfail, andThen_failed, transact_eq_after (selectReq r), transact_after]
    rfl
  | 2 =>
    obtain ⟨a, b, h0⟩ := drawAt_ok_of_allAnswered hbefore (show 0 < 2 by omega)
    obtain ⟨c, x, h1⟩ := drawAt_ok_of_allAnswered hbefore (show 1 < 2 by omega)
    have hc : byteOf (s.drawAt 1) = c := by rw [h1]; rfl
    rw [registerUpdate, memRead1_ok h0 h1, andThen_done, memWrite_fail (by simpa using hfail),
      transact_eq_after (selectReq r), transact_after, transact_after, hc]
    rfl

/-! ### The selector of AGAIN -/

/-- R45, R100: code and multiplier of a selector; 1 stands for the same as an unrecognised one. -/
theorem alsSelect_eq (sel : Byte) : alsSelect sel =
    if sel = 8 then (0b01, 8) else if sel = 16 then (0b10, 16) else if sel = 120 then (0b11, 120) else (0b00, 1) := by
  unfold alsSelect
  split
  next h => obtain rfl : sel = 1 := BitVec.eq_of_toNat_eq h; rfl
  next h => obtain rfl : sel = 8 := BitVec.eq_of_toNat_eq h; rfl
  next h => obtain rfl : sel = 16 := BitVec.eq_of_toNat_eq h; rfl
  next h => obtain rfl : sel = 120 := BitVec.eq_of_toNat_eq h; rfl
  next h8 h16 h120 =>
    rw [if_neg fun h => h8 (congrArg BitVec.toNat h), if_neg fun h => h16 (congrArg BitVec.toNat h),
      if_neg fun h => h120 (congrArg BitVec.toNat h)]

/-- R45, R100: the code the block merges is the code of the spec's table. -/
theorem alsSelect_code (sel : Byte) : (alsSelect sel).1.setWidth 8 = alsCodeOf sel := by
  rw [alsSelect_eq, alsCodeOf]
  split_ifs <;> rfl

/-! ### AGAIN -/

/-- R100: `registerUpdate` of CONTROL, then the multiplier is recorded. -/
theorem exec_again_eq (sel : Byte) (s : State) : exec (.again sel) s =
    .next (finish ((registerUpdate .control (mergeAlsCode (alsSelect sel).1) s).andThen fun _ s =>
      setAlsGain (alsSelect sel).2 s)) :=
  congrArg (fun r => Host.Outcome.next (finish r)) (andThen_assoc _ _ _).symm

/-- R100: the spec's transaction list of AGAIN is that of its `registerUpdate`. -/
theorem plannedRequests_again (sel : Byte) (d : Nat → Draw) :
    plannedRequests (.again sel) d = registerUpdateRequests .control (mergeAlsCode (alsSelect sel).1) d := by
  rw [plannedRequests, registerUpdateRequests, mergeAlsCode, alsSelect_code]
  rfl

/-- R100: AGAIN whose transactions are answered. -/
theorem exec_again_answered (sel : Byte) {s : State} {a b c x p q : Byte}
    (h0 : s.drawAt 0 = .ok a b) (h1 : s.drawAt 1 = .ok c x) (h2 : s.drawAt 2 = .ok p q) :
    exec (.again sel) s = .next { s.skipDraws 3 with
      status := 0x00, seq := .idle, alsGain := (alsSelect sel).2,
      trace := s.trace ++ [W1 0x0F, R1 c, W2 0xEF (mergeAlsCode (alsSelect sel).1 c)] } := by
  rw [exec_again_eq, registerUpdate_answered _ _ h0 h1 h2]
  rfl

/-- R100, R141: AGAIN whose transaction `k` is the first to fail; the multiplier is not recorded. -/
theorem exec_again_failed (sel : Byte) {s : State} {k : Nat} (hk : k < 3) (h : FirstFailure s k) :
    exec (.again sel) s = .next (failedRun (.again sel) s k) := by
  rw [exec_again_eq, registerUpdate_failed _ _ hk h, andThen_failed, finish_failed, raiseTransportFailure_eq, after_eq,
    failedRun, commandTranscript, plannedRequests_again]

/-- R70: the selector is the ARG byte, above an opcode byte with the reserved field 0. -/
theorem encode_again (sel : Byte) : encode (.again sel) = sel ++ (0x07 : Byte) :=
  BitVec.append_assoc (x₁ := sel) (x₂ := (0 : BitVec 4)) (x₃ := (7 : BitVec 4))

/-- Settles O25: `exec_again_answered` for the code and multiplier of the selector, and `exec_again_failed`. -/
theorem againMergesCodeAndRecordsMultiplier : Obligations.AgainMergesCodeAndRecordsMultiplier := by
  refine ⟨encode_again, fun sel s a b c x p q code m hsel h0 h1 h2 => ?answered,
    fun sel s k hk h => exec_again_failed sel hk h⟩
  case answered =>
    obtain ⟨rfl, rfl⟩ : code = (alsSelect sel).1.setWidth 8 ∧ m = (alsSelect sel).2 := by
      obtain ⟨rfl, rfl, rfl⟩ | ⟨rfl, rfl, rfl⟩ | ⟨rfl, rfl, rfl⟩ | ⟨rfl, rfl, rfl⟩ | ⟨-, h8, h16, h120, rfl, rfl⟩ := hsel
      · exact ⟨rfl, rfl⟩
      · exact ⟨rfl, rfl⟩
      · exact ⟨rfl, rfl⟩
      · exact ⟨rfl, rfl⟩
      · rw [alsSelect_eq, if_neg h8, if_neg h16, if_neg h120]
        exact ⟨rfl, rfl⟩
    exact exec_again_answered sel h0 h1 h2

end Sys2Proof.Proofs

/-! The conversion commands of `43_conversion.md` (R110 to R119). RDALS and RDPROX only read before they compute, so both
run along their list of requests: `afterRequests` is the state after the first `k` of them, and a register read takes two,
answered (`memRead1_answered`, `memRead2_answered`) or with one of them failing (`selectThenRead_failed`). The arithmetic
of the block is related to the spec's integers by one lemma per rule. -/

namespace Sys2Proof.Proofs

open Sys2Proof.Machine Sys2Proof.Safety Sys2Proof.Laws

/-! ### Along a list of requests -/

/-- R154: the state after the first `k` transactions of the list, whose entries are those of the transcript. -/
def afterRequests (reqs : List BusReq) (s : State) (k : Nat) : State := after s k ((transcript reqs s.drawAt).take k)

theorem afterRequests_zero (reqs : List BusReq) (s : State) : afterRequests reqs s 0 = s := after_zero s

/-- R27: a command starts before the first transaction of its list. -/
theorem exec_eq_exec_afterRequests (i : Instr) (s : State) :
    exec i s = exec i (afterRequests (plannedRequests i s.drawAt) s 0) := by
  rw [afterRequests_zero]

@[simp] theorem afterRequests_drawAt (reqs : List BusReq) (s : State) (k j : Nat) :
    (afterRequests reqs s k).drawAt j = s.drawAt (k + j) := after_drawAt s k j _

/-- R154: the transcript up to and with transaction `k`. -/
theorem take_transcript_succ {reqs : List BusReq} {k : Nat} {req : BusReq} (h : reqs[k]? = some req) (d : Nat → Draw) :
    (transcript reqs d).take (k + 1) = (transcript reqs d).take k ++ [busEvent req (d k)] := by
  have hk : k < reqs.length := (List.getElem?_eq_some_iff.mp h).1
  have hentry : (transcript reqs d)[k]? = some (busEvent req (d k)) := by
    simp [transcript, List.getElem?_zipWith, List.getElem?_range hk, h]
  rw [List.take_add_one, hentry, Option.toList_some]

/-- R50: transaction `k` of the list. -/
theorem transact_afterRequests {reqs : List BusReq} {k : Nat} {req : BusReq} (h : reqs[k]? = some req) (s : State) :
    transact req (afterRequests reqs s k) = afterRequests reqs s (k + 1) := by
  rw [afterRequests, afterRequests, transact_after, take_transcript_succ h]

/-- R140: a command that goes on to the end of its list has its whole transcript in the trace. -/
theorem afterRequests_length (reqs : List BusReq) (s : State) :
    afterRequests reqs s reqs.length = after s reqs.length (transcript reqs s.drawAt) := by
  rw [afterRequests, List.take_of_length_le (by simp [transcript])]

/-- R141: a command that fails at transaction `k` of its list ends in the failed run of the statements. -/
theorem finish_failed_afterRequests (i : Instr) (s : State) (k : Nat) :
    finish (.failed (afterRequests (plannedRequests i s.drawAt) s (k + 1))) = failedRun i s k := rfl

section
variable {reqs : List BusReq} {r : SensorReg} {s : State} {k : Nat} (hsel : reqs[k]? = some (selectReq r))
include hsel

/-- R52: a 1-byte register read at transactions `k` and `k + 1` of the list, answered. -/
theorem memRead1_answered (hread : reqs[k + 1]? = some (.read 1)) {a b e x : Byte} (h0 : s.drawAt k = .ok a b)
    (h1 : s.drawAt (k + 1) = .ok e x) : memRead1 r (afterRequests reqs s k) = .done e (afterRequests reqs s (k + 2)) := by
  rw [memRead1_ok (by simpa using h0) (by simpa using h1), transact_afterRequests hsel, transact_afterRequests hread]

/-- R53: a 2-byte register read at transactions `k` and `k + 1` of the list, answered. -/
theorem memRead2_answered (hread : reqs[k + 1]? = some (.read 2)) {a b lo hi : Byte} (h0 : s.drawAt k = .ok a b)
    (h1 : s.drawAt (k + 1) = .ok lo hi) :
    memRead2 r (afterRequests reqs s k) = .done (littleEndian lo hi) (afterRequests reqs s (k + 2)) := by
  rw [memRead2_ok (by simpa using h0) (by simpa using h1), transact_afterRequests hsel, transact_afterRequests hread]

/-- R52, R53, R141: whatever the width of the read, the failure of its select or of itself ends it there. -/
theorem selectThenRead_failed {α : Type} {read : State → Res α} {n j : Nat}
    (hfail : ∀ {t : State}, t.drawAt 0 = .fail → read t = .failed (transact (.read n) t))
    (hread : reqs[k + 1]? = some (.read n)) (hkj : k ≤ j) (hjk : j < k + 2) (h : FirstFailure s j) :
    ((busWrite (selectReq r) (afterRequests reqs s k)).andThen fun _ t => read t) =
      .failed (afterRequests reqs s (j + 1)) := by
  obtain ⟨hbefore, hj⟩ := h
  obtain rfl | rfl : j = k ∨ j = k + 1 := by omega
  · rw [busWrite_fail (by simpa using hj), andThen_failed, transact_afterRequests hsel]
  · obtain ⟨a, b, hk⟩ := drawAt_ok_of_allAnswered hbefore (Nat.lt_succ_self k)
    rw [busWrite_ok (by simpa using hk), andThen_done, transact_afterRequests hsel, hfail (by simpa using hj),
      transact_afterRequests hread]

end

/-! ### The value of a reading -/

/-- R53: the block's little-endian value is the pair of the statements. -/
theorem littleEndian_toNat_eq_pairValue (lo hi : Byte) : (littleEndian lo hi).toNat = pairValue lo hi :=
  littleEndian_toNat lo hi

/-- R110: the subtraction from 256 cannot run below 0 on a byte. -/
theorem alsit_cast (atime : Byte) : (alsit atime : Int) = 87 * (256 - atime.toNat) / 32 := by
  have h : atime.toNat ≤ 256 := Nat.le_of_lt atime.isLt
  rw [alsit]
  push_cast [h]
  rfl

/-- R113: the count as an integer. -/
theorem iac_cast (ch0 ch1 : Word) : (iac ch0 ch1 : Int) = max (max (iac1 ch0 ch1) (iac2 ch0 ch1)) 0 :=
  Int.toNat_of_nonneg (le_max_right _ _)

/-- R111: the subtrahend of the first term is no less than 0. -/
theorem iac1_le_ch0 (ch0 ch1 : Word) : iac1 ch0 ch1 ≤ ch0.toNat :=
  Int.sub_le_self _ (Int.natCast_nonneg _)

/-- R112: C is below 1000 and the D term only subtracts. -/
theorem iac2_le_ch0 (ch0 ch1 : Word) : iac2 ch0 ch1 ≤ ch0.toNat := by
  have hdiv : iac2Dividend ch0 ch1 ≤ 1000 * ch0.toNat := by
    simp only [iac2Dividend, Config.calC, Config.calD]
    omega
  calc iac2 ch0 ch1 ≤ (1000 * (ch0.toNat : Int)).tdiv 1000 := Int.tdiv_le_tdiv (by decide) hdiv
    _ = ch0.toNat := Int.mul_tdiv_cancel_left _ (by decide)

/-- R110 to R115: the block's pipeline computes the spec's, for a gain that R23 allows. -/
theorem lux_eq_specLux (ch0 ch1 : Word) (atime : Byte) {g : Byte} (hg : g ≠ 0) :
    (lux ch0 ch1 atime g : Int) = specLux ch0.toNat ch1.toNat atime.toNat g.toNat := by
  have hlpc : (lpc atime : Int) = 490 * 52 / (87 * (256 - atime.toNat) / 32) := by
    rw [lpc, Int.natCast_ediv, alsit_cast]
    rfl
  rw [lux, gainDiv_of_ne hg, Int.natCast_ediv, Int.natCast_mul, iac_cast, hlpc]
  rfl

/-- R111 to R115: two dark channels give 0, whatever ATIME and the gain. -/
theorem specLux_dark (atime gain : Int) : specLux 0 0 atime gain = 0 := by simp [specLux]

/-- R116: the value RDALS writes to RESULT. -/
theorem alsResult_eq (lo0 hi0 lo1 hi1 atime : Byte) {g : Byte} (hg : g ≠ 0) :
    alsResult (littleEndian lo0 hi0) (littleEndian lo1 hi1) atime g =
      BitVec.ofInt 32 (specLux (pairValue lo0 hi0) (pairValue lo1 hi1) atime.toNat g.toNat) := by
  rw [alsResult, ← BitVec.ofInt_natCast, lux_eq_specLux _ _ _ hg, littleEndian_toNat_eq_pairValue,
    littleEndian_toNat_eq_pairValue]

/-- R117: the value RDPROX writes to RESULT. -/
theorem proxResult_eq (lo hi : Byte) {g : Byte} (hg : g ≠ 0) :
    proxResult (littleEndian lo hi) g = BitVec.ofNat 32 (pairValue lo hi / g.toNat) := by
  rw [proxResult, gainDiv_of_ne hg, littleEndian_toNat_eq_pairValue]

/-! ### The rounding of the second term -/

/-- R119: on a dividend not below 0, or a multiple of 1000, truncation is floor. -/
theorem iac2_eq_floor {ch0 ch1 : Word} (h : 0 ≤ iac2Dividend ch0 ch1 ∨ 1000 ∣ iac2Dividend ch0 ch1) :
    iac2 ch0 ch1 = iac2Dividend ch0 ch1 / 1000 := by
  rw [iac2, Int.tdiv_eq_ediv, if_pos h, add_zero]

/-- R119: on any other dividend truncation is one above floor. -/
theorem iac2_eq_floor_add_one {ch0 ch1 : Word} (hneg : iac2Dividend ch0 ch1 < 0)
    (hdvd : ¬ 1000 ∣ iac2Dividend ch0 ch1) : iac2 ch0 ch1 = iac2Dividend ch0 ch1 / 1000 + 1 := by
  rw [iac2, Int.tdiv_eq_ediv, if_neg (not_or.mpr ⟨not_le.mpr hneg, hdvd⟩)]
  rfl

/-- R119: the clamp takes both roundings of the second term to the same value, since a dividend below 0 has both at most
0. -/
theorem max_iac2_zero (ch0 ch1 : Word) : max (iac2Dividend ch0 ch1 / 1000) 0 = max (iac2 ch0 ch1) 0 := by
  obtain hneg | hnonneg := lt_or_ge (iac2Dividend ch0 ch1) 0
  · have htrunc : iac2 ch0 ch1 ≤ 0 := (Int.tdiv_le_tdiv (by decide) hneg.le).trans_eq (Int.zero_tdiv _)
    have hfloor : iac2Dividend ch0 ch1 / 1000 ≤ 0 := Int.ediv_nonpos_of_nonpos_of_neg hneg.le (by decide)
    rw [max_eq_right htrunc, max_eq_right hfloor]
  · rw [iac2_eq_floor (.inl hnonneg)]

/-! ### RDPROX -/

/-- R117: RDPROX whose transactions are answered. -/
theorem exec_rdprox_answered {s : State} {a b lo hi : Byte} (h0 : s.drawAt 0 = .ok a b) (h1 : s.drawAt 1 = .ok lo hi) :
    exec .rdprox s = .next { s.skipDraws 2 with
      status := 0x00, seq := .idle, result := proxResult (littleEndian lo hi) s.proxGain,
      trace := s.trace ++ [W1 0x18, R2 lo hi] } := by
  rw [exec, execRdprox, memRead2_ok h0 h1, andThen_done, transact_read_after_select h0, h1, busEvent_read2_ok]
  rfl

/-- R117, R141: RDPROX whose transaction `k` is the first to fail; RESULT is not written. -/
theorem exec_rdprox_failed {s : State} {k : Nat} (hk : k < 2) (h : FirstFailure s k) :
    exec .rdprox s = .next (failedRun .rdprox s k) := by
  rw [exec_eq_exec_afterRequests, exec, execRdprox, memRead2,
    selectThenRead_failed rfl busRead2_fail rfl (Nat.zero_le k) hk h, andThen_failed, finish_failed_afterRequests]

/-! ### RDALS -/

/-- R116: the transcript of RDALS whose transactions are answered. -/
theorem transcript_rdals_answered {d : Nat → Draw} {a0 b0 a2 b2 a4 b4 lo0 hi0 lo1 hi1 atime x : Byte}
    (h0 : d 0 = .ok a0 b0) (h1 : d 1 = .ok lo0 hi0) (h2 : d 2 = .ok a2 b2) (h3 : d 3 = .ok lo1 hi1)
    (h4 : d 4 = .ok a4 b4) (h5 : d 5 = .ok atime x) :
    transcript (plannedRequests .rdals d) d = [W1 0x14, R2 lo0 hi0, W1 0x16, R2 lo1 hi1, W1 0x01, R1 atime] := by
  have hreqs : plannedRequests .rdals d = [selectReq .ch0datal, .read 2, selectReq .ch1datal, .read 2, selectReq .atime,
    .read 1] := rfl
  simp [hreqs, transcript, List.range_succ, h0, h1, h2, h3, h4, h5, SensorReg.offset]

/-- R116: RDALS whose transactions are answered. -/
theorem exec_rdals_answered {s : State} {a0 b0 a2 b2 a4 b4 lo0 hi0 lo1 hi1 atime x : Byte}
    (h0 : s.drawAt 0 = .ok a0 b0) (h1 : s.drawAt 1 = .ok lo0 hi0) (h2 : s.drawAt 2 = .ok a2 b2)
    (h3 : s.drawAt 3 = .ok lo1 hi1) (h4 : s.drawAt 4 = .ok a4 b4) (h5 : s.drawAt 5 = .ok atime x) :
    exec .rdals s = .next { s.skipDraws 6 with
      status := 0x00, seq := .idle,
      result := alsResult (littleEndian lo0 hi0) (littleEndian lo1 hi1) atime s.alsGain,
      trace := s.trace ++ [W1 0x14, R2 lo0 hi0, W1 0x16, R2 lo1 hi1, W1 0x01, R1 atime] } := by
  have hend : afterRequests (plannedRequests .rdals s.drawAt) s 6 =
      after s 6 [W1 0x14, R2 lo0 hi0, W1 0x16, R2 lo1 hi1, W1 0x01, R1 atime] := by
    rw [← transcript_rdals_answered h0 h1 h2 h3 h4 h5]
    exact afterRequests_length _ s
  rw [exec_eq_exec_afterRequests, exec, execRdals, memRead2_answered rfl rfl h0 h1, andThen_done,
    memRead2_answered rfl rfl h2 h3, andThen_done, memRead1_answered rfl rfl h4 h5, andThen_done, hend]
  rfl

/-- R116, R141: RDALS whose transaction `k` is the first to fail, in one of its three readings; RESULT is not written. -/
theorem exec_rdals_failed {s : State} {k : Nat} (hk : k < 6) (h : FirstFailure s k) :
    exec .rdals s = .next (failedRun .rdals s k) := by
  have answered {j : Nat} (hj : j < k) : ∃ a b, s.drawAt j = .ok a b := drawAt_ok_of_allAnswered h.1 hj
  rw [exec_eq_exec_afterRequests, exec, execRdals, ← finish_failed_afterRequests]
  obtain hch0 | hk2 := Nat.lt_or_ge k 2
  · rw [memRead2, selectThenRead_failed rfl busRead2_fail rfl (Nat.zero_le k) hch0 h, andThen_failed]
  obtain ⟨a0, b0, h0⟩ := answered (show 0 < k by omega)
  obtain ⟨lo0, hi0, h1⟩ := answered (show 1 < k by omega)
  rw [memRead2_answered rfl rfl h0 h1, andThen_done]
  obtain hch1 | hk4 := Nat.lt_or_ge k 4
  · rw [memRead2, selectThenRead_failed rfl busRead2_fail rfl hk2 hch1 h, andThen_failed]
  obtain ⟨a2, b2, h2⟩ := answered (show 2 < k by omega)
  obtain ⟨lo1, hi1, h3⟩ := answered (show 3 < k by omega)
  rw [memRead2_answered rfl rfl h2 h3, andThen_done, memRead1,
    selectThenRead_failed rfl busRead1_fail rfl hk4 hk h, andThen_failed]

/-! ### The statements -/

/-- Settles O27: `exec_rdals_answered` with the spec's value, and `exec_rdals_failed`. -/
theorem rdalsComputesTheAlsValue : Obligations.RdalsComputesTheAlsValue := by
  refine ⟨rfl, ?answered, specLux_dark, fun s k hk h => exec_rdals_failed hk h⟩
  case answered =>
    intro s a0 b0 a2 b2 a4 b4 lo0 hi0 lo1 hi1 atime x hgain h0 h1 h2 h3 h4 h5
    rw [exec_rdals_answered h0 h1 h2 h3 h4 h5, alsResult_eq _ _ _ _ _ hgain]

/-- Settles O28: `exec_rdprox_answered` with the truncated quotient, and `exec_rdprox_failed`. -/
theorem rdproxDividesByTheRecordedGain : Obligations.RdproxDividesByTheRecordedGain := by
  refine ⟨rfl, ?answered, fun s k hk h => exec_rdprox_failed hk h⟩
  case answered =>
    intro s a b lo hi hgain h0 h1
    rw [exec_rdprox_answered h0 h1, proxResult_eq _ _ hgain]

/-- Settles O37: each of the two terms is at most channel 0, and so is 0. -/
theorem infraredAdjustedCountIsClamped : Obligations.InfraredAdjustedCountIsClamped := by
  intro ch0 ch1
  refine ⟨iac_cast ch0 ch1, ?bound⟩
  case bound =>
    rw [← Int.ofNat_le, iac_cast]
    exact max_le (max_le (iac1_le_ch0 ch0 ch1) (iac2_le_ch0 ch0 ch1)) (Int.natCast_nonneg _)

/-- Settles O38: the terms differ on dividends below 0 only, where the clamp absorbs both (`max_iac2_zero`). -/
theorem roundingDirectionIsAbsorbedByTheClamp : Obligations.RoundingDirectionIsAbsorbedByTheClamp := by
  intro ch0 ch1
  refine ⟨?count, iac2_eq_floor_add_one, iac2_eq_floor⟩
  case count => rw [iac_cast, max_assoc, max_assoc, max_iac2_zero]

end Sys2Proof.Proofs

/-! The initialization command of `44_initialize.md` (R130 to R134). INIT is nine register writes and two `UpdateEnable`s
one after another, so its answered run is the answered run of each part (`memWrites_answered`, `updateEnable_after`)
put together by `after_after`. -/

namespace Sys2Proof.Proofs

open Sys2Proof.Machine Sys2Proof.Safety Sys2Proof.Laws

/-! ### Runs one after another -/

/-- R154: a run that follows a run is one run. -/
@[simp] theorem after_after (s : State) (n m : Nat) (evs evs' : List TraceEvent) :
    after (after s n evs) m evs' = after s (n + m) (evs ++ evs') := by
  rw [after_eq s (n + m), ← skipDraws_skipDraws, ← List.append_assoc]
  rfl

/-- R50: of `n + m` answered transactions, those after the first `n` are answered. -/
theorem allAnswered_after {s : State} {n m : Nat} (h : AllAnswered s (n + m)) (evs : List TraceEvent) :
    AllAnswered (after s n evs) m := by
  intro j hj
  rw [after_drawAt]
  exact h (n + j) (Nat.add_lt_add_left hj n)

/-! ### Register writes one after another -/

/-- R51: the trace entries of answered register writes. -/
def memWritesEvents (l : List (SensorReg × Byte)) : List TraceEvent := l.map fun p => W2 (p.1.offset ||| 0xE0) p.2

/-- R51, R60: register writes that are all answered. -/
theorem memWrites_answered {l : List (SensorReg × Byte)} {s : State} (h : AllAnswered s l.length) :
    memWrites l s = .done () (after s l.length (memWritesEvents l)) := by
  induction l generalizing s with
  | nil => rw [memWrites, memWritesEvents, List.map_nil, List.length_nil, after_zero]
  | cons p rest ih =>
    obtain ⟨r, v⟩ := p
    obtain ⟨a, b, h0⟩ := drawAt_ok_of_allAnswered h (Nat.succ_pos _)
    rw [List.length_cons, Nat.add_comm] at h
    rw [memWrites, memWrite_ok h0, andThen_done, transact_eq_after, h0, busEvent_writeReq_ok, ih (allAnswered_after h _),
      after_after, List.length_cons, Nat.add_comm 1]
    rfl

/-! ### UpdateEnable within a run -/

/-- R90: an answered `UpdateEnable` that follows a run. -/
theorem updateEnable_after (mask : Byte) (set : Bool) {s : State} {n : Nat} {e x : Byte} (evs : List TraceEvent)
    (hall : AllAnswered s (n + 3)) (hread : s.drawAt (n + 1) = .ok e x) :
    updateEnable mask set (after s n evs) = .done () (after s (n + 3) (evs ++ updateEnableEvents mask set e)) := by
  obtain ⟨a, b, h0⟩ := drawAt_ok_of_allAnswered (allAnswered_after hall evs) (show 0 < 3 by omega)
  obtain ⟨c, d, h2⟩ := drawAt_ok_of_allAnswered (allAnswered_after hall evs) (show 2 < 3 by omega)
  rw [updateEnable_answered mask set h0 (by rwa [after_drawAt]) h2, after_after]

/-! ### INIT -/

/-- R130, R131: the trace entries of an INIT whose two reads of ENABLE return `e1` and `e2`. -/
def initEvents (e1 e2 : Byte) : List TraceEvent :=
  memWritesEvents initWrites ++ updateEnableEvents maskAEN true e1 ++ updateEnableEvents maskPON true e2 ++
    [.settleReq] ++ [.settleDone]

/-- R131, R133: INIT whose transactions are answered; no gain is written. -/
theorem exec_init_answered {s : State} {e1 x1 e2 x2 : Byte} (hall : AllAnswered s 15) (h10 : s.drawAt 10 = .ok e1 x1)
    (h13 : s.drawAt 13 = .ok e2 x2) :
    exec .init s = .next (complete .ok (after s 15 (initEvents e1 e2))) := by
  have prefix_answered {n : Nat} (hn : n ≤ 15) : AllAnswered s n := fun j hj => hall j (Nat.lt_of_lt_of_le hj hn)
  have hwrites : memWrites initWrites s = .done () (after s 9 (memWritesEvents initWrites)) :=
    memWrites_answered (prefix_answered (show 9 ≤ 15 by omega))
  rw [exec, execInit, hwrites, andThen_done, updateEnable_after _ _ _ (prefix_answered (show 12 ≤ 15 by omega)) h10,
    andThen_done, updateEnable_after _ _ _ hall h13, andThen_done, settle, log_after, log_after, finish_done, initEvents]

/-! ### The statement -/

/-- Settles O29: `exec_init_answered`, with the entries of `initEvents` written out. -/
theorem initIssuesItsFifteenTransactions : Obligations.InitIssuesItsFifteenTransactions := by
  intro s e1 x1 e2 x2 hall h10 h13
  rw [exec_init_answered hall h10 h13, complete_ok_eq, after_eq]
  rfl

end Sys2Proof.Proofs

/-! The exceptions of `60_exceptions.md` (R140 to R142). A word that decodes to no command completes with ILLEGAL, called
or issued. The first failing transaction ends any command in its `failedRun`: INIT is run along its list of requests, like
the conversion commands, PGAIN is a `registerUpdate`, and the commands of the earlier parts have their own lemmas. -/

namespace Sys2Proof.Proofs

open Sys2Proof.Machine Sys2Proof.Safety Sys2Proof.Laws

/-! ### The step at the head of the schedule -/

/-- R143: an agent moves, unless an idle block stops with a recorded fault. -/
theorem step_eq_agentStep {s : State} (hrun : s.seq = .idle → s.fault = none) : step s = agentStep s := by
  cases hseq : s.seq with
  | idle => rw [step, machineStep, hseq, hrun hseq]
  | busy cmd k vals => rw [step, machineStep, hseq]
  | settling cmd => rw [step, machineStep, hseq]

/-- R5: the agent at the head of the schedule moves. -/
theorem agentStep_of_schedule {s : State} {e : Event} {rest : List Event} (hs : s.schedule = e :: rest) :
    agentStep s = takeEvent e { s with schedule := rest } := by
  simp only [agentStep, nextEvent, popEvent, hs, List.tail_cons]

/-! ### A word that decodes to no command -/

/-- R142: ILLEGAL on an idle block, whose sequencer is IDLE already. -/
theorem completeIllegal_accept {s : State} (h : s.seq = .idle) : completeIllegal (accept s) = { s with status := 0x02 } := by
  rw [completeIllegal_eq, accept, ← h]

/-- R142: an idle block completes an illegal word in the move of its issue, whether the host waits or not. -/
theorem takeEvent_illegal {s : State} {w : Word} {ev : Event} {e : DecodeError} (hseq : s.seq = .idle)
    (hbusy : busyBit s.status = false) (hev : ev = .call w ∨ ev = .issue w) (hw : decode w = .error e) :
    takeEvent ev s = .next { s with status := 0x02 } := by
  have hnot : ¬ s.isBusy = true := ne_true_of_eq_false hbusy
  obtain rfl | rfl := hev
  · rw [takeEvent, hostCall, if_neg hnot, runWord, hw, ← completeIllegal_accept hseq]
  · rw [takeEvent, hostIssue, if_neg hnot, startWord, hw, ← completeIllegal_accept hseq]

/-- R70: the selector is the ARG byte, above an opcode byte with the reserved field 0. -/
theorem encode_pgain (sel : Byte) : encode (.pgain sel) = sel ++ (0x08 : Byte) :=
  BitVec.append_assoc (x₁ := sel) (x₂ := (0 : BitVec 4)) (x₃ := (8 : BitVec 4))

/-- Settles O9: `takeEvent_illegal` in the step of the host's move; a gain command's word is the `encode` of it. -/
theorem illegalWordWritesOnlyStatus : Obligations.IllegalWordWritesOnlyStatus := by
  refine ⟨?illegal, fun sel => ⟨decode_of_encode_eq (encode_again sel), decode_of_encode_eq (encode_pgain sel)⟩⟩
  case illegal =>
    intro s w rest ev hseq hbusy hfault hev hsched hillegal
    obtain ⟨e, hw⟩ := hillegal
    rw [step_eq_agentStep fun _ => hfault, agentStep_of_schedule hsched,
      takeEvent_illegal (s := { s with schedule := rest }) hseq hbusy hev hw]

/-! ### Register writes along a list of requests -/

section
variable {reqs : List BusReq} {r : SensorReg} {v : Byte} {s : State} {k : Nat} (hwrite : reqs[k]? = some (writeReq r v))
include hwrite

/-- R51: a register write at transaction `k` of the list, answered. -/
theorem memWrite_afterRequests_ok {a b : Byte} (h : s.drawAt k = .ok a b) :
    memWrite r v (afterRequests reqs s k) = .done () (afterRequests reqs s (k + 1)) := by
  rw [memWrite_ok (by simpa using h), transact_afterRequests hwrite]

/-- R51, R141: a register write at transaction `k` of the list, failed. -/
theorem memWrite_afterRequests_fail (h : s.drawAt k = .fail) :
    memWrite r v (afterRequests reqs s k) = .failed (afterRequests reqs s (k + 1)) := by
  rw [memWrite_fail (by simpa using h), transact_afterRequests hwrite]

end

/-- R51: the requests of register writes one after another. -/
def memWritesRequests (l : List (SensorReg × Byte)) : List BusReq := l.map fun p => writeReq p.1 p.2

/-- A list that begins with an element from its place `k` on has that element there, and the rest from `k + 1` on. -/
theorem getElem?_and_drop_succ_of_drop_eq_cons {α : Type} {l rest : List α} {x : α} {k : Nat} (h : l.drop k = x :: rest) :
    l[k]? = some x ∧ l.drop (k + 1) = rest := by
  constructor
  · rw [← List.head?_drop, h, List.head?_cons]
  · rw [← List.tail_drop, h, List.tail_cons]

/-- R60: register writes at the transactions from `k` on, all answered. -/
theorem memWrites_afterRequests_ok {reqs later : List BusReq} {l : List (SensorReg × Byte)} {s : State} {k : Nat}
    (hreqs : reqs.drop k = memWritesRequests l ++ later) (h : AllAnswered s (k + l.length)) :
    memWrites l (afterRequests reqs s k) = .done () (afterRequests reqs s (k + l.length)) := by
  induction l generalizing k with
  | nil => rfl
  | cons p rest ih =>
    obtain ⟨hhead, htail⟩ := getElem?_and_drop_succ_of_drop_eq_cons hreqs
    have hlen : k + (p :: rest).length = k + 1 + rest.length := by rw [List.length_cons]; omega
    rw [hlen] at h ⊢
    obtain ⟨a, b, hk⟩ := drawAt_ok_of_allAnswered h (show k < k + 1 + rest.length by omega)
    rw [memWrites, memWrite_afterRequests_ok hhead hk, andThen_done, ih htail h]

/-- R60, R141: register writes at the transactions from `k` on, of which transaction `j` is the first to fail. -/
theorem memWrites_afterRequests_fail {reqs later : List BusReq} {l : List (SensorReg × Byte)} {s : State} {k j : Nat}
    (hreqs : reqs.drop k = memWritesRequests l ++ later) (hkj : k ≤ j) (hj : j < k + l.length) (h : FirstFailure s j) :
    memWrites l (afterRequests reqs s k) = .failed (afterRequests reqs s (j + 1)) := by
  induction l generalizing k with
  | nil => exact absurd hj (Nat.not_lt.mpr hkj)
  | cons p rest ih =>
    obtain ⟨hhead, htail⟩ := getElem?_and_drop_succ_of_drop_eq_cons hreqs
    rw [List.length_cons] at hj
    obtain ⟨hbefore, hfail⟩ := h
    obtain rfl | hlt := Nat.eq_or_lt_of_le hkj
    · rw [memWrites, memWrite_afterRequests_fail hhead hfail, andThen_failed]
    · obtain ⟨a, b, hk⟩ := drawAt_ok_of_allAnswered hbefore hlt
      rw [memWrites, memWrite_afterRequests_ok hhead hk, andThen_done, ih htail hlt (by omega)]

/-! ### UpdateEnable along a list of requests -/

section
variable {reqs : List BusReq} {mask : Byte} {set : Bool} {s : State} {k : Nat}
  (hsel : reqs[k]? = some (selectReq .enable)) (hread : reqs[k + 1]? = some (.read 1))
include hsel hread

/-- R90: `UpdateEnable` whose select and read are answered comes to its write. -/
theorem updateEnable_afterRequests_eq_memWrite (h : AllAnswered s (k + 2)) :
    updateEnable mask set (afterRequests reqs s k) =
      memWrite .enable (enableUpdate mask set (byteOf (s.drawAt (k + 1)))) (afterRequests reqs s (k + 2)) := by
  obtain ⟨a, b, h0⟩ := drawAt_ok_of_allAnswered h (show k < k + 2 by omega)
  obtain ⟨e, x, h1⟩ := drawAt_ok_of_allAnswered h (show k + 1 < k + 2 by omega)
  rw [updateEnable, memRead1_answered hsel hread h0 h1, andThen_done, h1, byteOf]

variable (hwrite : reqs[k + 2]? = some (writeReq .enable (enableUpdate mask set (byteOf (s.drawAt (k + 1))))))
include hwrite

/-- R90: `UpdateEnable` at transactions `k` to `k + 2` of the list, all answered. -/
theorem updateEnable_afterRequests_ok (h : AllAnswered s (k + 3)) :
    updateEnable mask set (afterRequests reqs s k) = .done () (afterRequests reqs s (k + 3)) := by
  obtain ⟨a, b, h2⟩ := drawAt_ok_of_allAnswered h (show k + 2 < k + 3 by omega)
  rw [updateEnable_afterRequests_eq_memWrite hsel hread fun j hj => h j (by omega),
    memWrite_afterRequests_ok hwrite h2]

/-- R90, R141: `UpdateEnable` at transactions `k` to `k + 2` of the list, of which `j` is the first to fail. -/
theorem updateEnable_afterRequests_fail {j : Nat} (hkj : k ≤ j) (hj : j < k + 3) (h : FirstFailure s j) :
    updateEnable mask set (afterRequests reqs s k) = .failed (afterRequests reqs s (j + 1)) := by
  obtain hlt | rfl : j < k + 2 ∨ j = k + 2 := by omega
  · rw [updateEnable, memRead1, selectThenRead_failed hsel busRead1_fail hread hkj hlt h, andThen_failed]
  · obtain ⟨hbefore, hfail⟩ := h
    rw [updateEnable_afterRequests_eq_memWrite hsel hread hbefore, memWrite_afterRequests_fail hwrite hfail]

end

/-! ### INIT -/

/-- R131: the spec's transaction list of INIT is that of its nine writes, then those of its two `UpdateEnable`s. -/
theorem plannedRequests_init (d : Nat → Draw) : plannedRequests .init d = memWritesRequests initWrites ++
    (updateEnableRequests maskAEN true (fun j => d (9 + j)) ++ updateEnableRequests maskPON true fun j => d (12 + j)) :=
  rfl

/-- R131, R141: INIT whose transaction `k` is the first to fail, among its nine writes or in one of its two
`UpdateEnable`s; there is no settle wait. -/
theorem exec_init_failed {s : State} {k : Nat} (hk : k < 15) (h : FirstFailure s k) :
    exec .init s = .next (failedRun .init s k) := by
  have answered {n : Nat} (hn : n ≤ k) : AllAnswered s n := fun j hj => h.1 j (Nat.lt_of_lt_of_le hj hn)
  have hlist : (plannedRequests .init s.drawAt).drop 0 = memWritesRequests initWrites ++ _ :=
    plannedRequests_init s.drawAt
  rw [exec_eq_exec_afterRequests, exec, execInit, ← finish_failed_afterRequests]
  obtain hwrites | hk9 := Nat.lt_or_ge k 9
  · rw [memWrites_afterRequests_fail hlist (Nat.zero_le k) hwrites h, andThen_failed]
  rw [memWrites_afterRequests_ok hlist (answered hk9), andThen_done, show 0 + initWrites.length = 9 from rfl]
  obtain hals | hk12 := Nat.lt_or_ge k 12
  · rw [updateEnable_afterRequests_fail rfl rfl rfl hk9 hals h, andThen_failed]
  rw [updateEnable_afterRequests_ok rfl rfl rfl (answered hk12), andThen_done,
    updateEnable_afterRequests_fail rfl rfl rfl hk12 hk h, andThen_failed]

/-! ### PGAIN -/

/-- R46, R101: the code the block merges is the code of the spec's table; 1 and an unrecognised selector have code 0. -/
theorem proxSelect_code (sel : Byte) : (proxSelect sel).1.setWidth 8 = proxCodeOf sel := by
  unfold proxSelect
  split
  next h => obtain rfl : sel = 1 := BitVec.eq_of_toNat_eq h; rfl
  next h => obtain rfl : sel = 2 := BitVec.eq_of_toNat_eq h; rfl
  next h => obtain rfl : sel = 4 := BitVec.eq_of_toNat_eq h; rfl
  next h => obtain rfl : sel = 8 := BitVec.eq_of_toNat_eq h; rfl
  next h2 h4 h8 =>
    rw [proxCodeOf, if_neg fun h => h2 (congrArg BitVec.toNat h), if_neg fun h => h4 (congrArg BitVec.toNat h),
      if_neg fun h => h8 (congrArg BitVec.toNat h)]
    rfl

/-- R101: `registerUpdate` of CONTROL, then the multiplier is recorded. -/
theorem exec_pgain_eq (sel : Byte) (s : State) : exec (.pgain sel) s =
    .next (finish ((registerUpdate .control (mergeProxCode Config.pgainKeepMask (proxSelect sel).1) s).andThen fun _ s =>
      setProxGain (proxSelect sel).2 s)) :=
  congrArg (fun r => Host.Outcome.next (finish r)) (andThen_assoc _ _ _).symm

/-- R101: the spec's transaction list of PGAIN is that of its `registerUpdate`. -/
theorem plannedRequests_pgain (sel : Byte) (d : Nat → Draw) : plannedRequests (.pgain sel) d =
    registerUpdateRequests .control (mergeProxCode Config.pgainKeepMask (proxSelect sel).1) d := by
  rw [plannedRequests, registerUpdateRequests, mergeProxCode, proxSelect_code]
  rfl

/-- R101, R141: PGAIN whose transaction `k` is the first to fail; the multiplier is not recorded. -/
theorem exec_pgain_failed (sel : Byte) {s : State} {k : Nat} (hk : k < 3) (h : FirstFailure s k) :
    exec (.pgain sel) s = .next (failedRun (.pgain sel) s k) := by
  rw [exec_pgain_eq, registerUpdate_failed _ _ hk h, andThen_failed, finish_failed, raiseTransportFailure_eq, after_eq,
    failedRun, commandTranscript, plannedRequests_pgain]

/-! ### Every command -/

/-- Settles O30: the failed run of each command. -/
theorem transportFailureEndsTheCommand : Obligations.TransportFailureEndsTheCommand := by
  intro i s k hk h
  cases i with
  | init => exact exec_init_failed hk h
  | pon => exact exec_control_failed .pon hk h
  | poff => exact exec_control_failed .poff hk h
  | aen en => exact exec_control_failed (.aen en) hk h
  | pen en => exact exec_control_failed (.pen en) hk h
  | wen en => exact exec_control_failed (.wen en) hk h
  | again sel => exact exec_again_failed sel hk h
  | pgain sel => exact exec_pgain_failed sel hk h
  | rdals => exact exec_rdals_failed hk h
  | rdprox => exact exec_rdprox_failed hk h

end Sys2Proof.Proofs

/-! The decoder against the encoder (`30_encoding.md` R70 to R78). `opcode_arg_of_decodeOpcode` says which command an
opcode and an operand name, and `decodeOpcode_eq_error_iff` which of them name none; with the fields of a word these
decide every word, and the legal words are as many as the commands with their operands. -/

namespace Sys2Proof.Proofs

/-! ### Which opcode and operand name a command -/

/-- R70: a word is the word of its three fields. -/
theorem wordOf_fieldsOf (w : Word) : wordOf (fieldsOf w) = w := by
  obtain ⟨harg, hrsv⟩ : 8 = 4 + 4 ∧ 4 = 0 + 4 := ⟨rfl, rfl⟩
  rw [wordOf, fieldsOf, BitVec.extractLsb'_append_extractLsb'_eq_extractLsb' harg,
    BitVec.extractLsb'_append_extractLsb'_eq_extractLsb' hrsv]
  exact BitVec.extractLsb'_eq_self

/-- R78: the reserved field is checked first. -/
theorem decode_eq (w : Word) : decode w =
    if (fieldsOf w).rsv = 0 then decodeOpcode (fieldsOf w).op (fieldsOf w).arg else .error .reservedField := rfl

/-- R72: `ARG[7:1]` is half of the operand byte. -/
theorem extractLsb'_one_toNat (arg : Byte) : (arg.extractLsb' 1 7).toNat = arg.toNat / 2 := by
  have := arg.isLt
  rw [BitVec.extractLsb'_toNat, Nat.shiftRight_eq_div_pow]
  omega

/-- R72: `ARG[7:1]` is 0 exactly in the bytes that carry a flag. -/
theorem extractLsb'_one_eq_zero_iff (arg : Byte) : arg.extractLsb' 1 7 = 0 ↔ arg.toNat / 2 = 0 := by
  rw [← extractLsb'_one_toNat]
  exact ⟨fun h => congrArg BitVec.toNat h, fun h => BitVec.eq_of_toNat_eq h⟩

/-- R72: an operand byte with `ARG[7:1]` 0 is that of its flag. -/
theorem enableArg_getLsbD {arg : Byte} (h : arg.extractLsb' 1 7 = 0) : enableArg (arg.getLsbD 0) = arg := by
  rw [extractLsb'_one_eq_zero_iff] at h
  obtain h0 | h1 : arg.toNat = 0 ∨ arg.toNat = 1 := by omega
  · obtain rfl : arg = 0 := BitVec.eq_of_toNat_eq h0
    rfl
  · obtain rfl : arg = 1 := BitVec.eq_of_toNat_eq h1
    rfl

/-- R73.3: a command with no operand. -/
theorem decodePlain_eq_ok {arg : Byte} {i j : Instr} (h : decodePlain arg i = .ok j) : arg = 0 ∧ i = j := by
  unfold decodePlain at h
  split at h
  · exact ⟨‹_›, Except.ok.inj h⟩
  · cases h

/-- R73.4: an enable command. -/
theorem decodeEnable_eq_ok {arg : Byte} {i : Bool → Instr} {j : Instr} (h : decodeEnable arg i = .ok j) :
    ∃ en, arg = enableArg en ∧ i en = j := by
  unfold decodeEnable at h
  split at h
  · exact ⟨_, (enableArg_getLsbD ‹_›).symm, Except.ok.inj h⟩
  · cases h

/-- R71, R78: a command is named by its own opcode and operand only. -/
theorem opcode_arg_of_decodeOpcode {op : BitVec 4} {arg : Byte} {i : Instr} (h : decodeOpcode op arg = .ok i) :
    i.opcode = op ∧ i.arg = arg := by
  have named {n : BitVec 4} (hn : op.toNat = n.toNat) : n = op := (BitVec.eq_of_toNat_eq hn).symm
  unfold decodeOpcode at h
  split at h
  case h_1 hop | h_2 hop | h_3 hop | h_9 hop | h_10 hop =>
    obtain ⟨rfl, rfl⟩ := decodePlain_eq_ok h
    exact ⟨named hop, rfl⟩
  case h_4 hop | h_5 hop | h_6 hop =>
    obtain ⟨en, rfl, rfl⟩ := decodeEnable_eq_ok h
    exact ⟨named hop, rfl⟩
  case h_7 hop | h_8 hop =>
    obtain rfl := Except.ok.inj h
    exact ⟨named hop, rfl⟩
  case h_11 => cases h

/-- Settles O2: a decoded word has the command's opcode and operand (`opcode_arg_of_decodeOpcode`) and a clear reserved
field, and a word is the word of its fields. -/
theorem decodeAndEncodeAgree : Obligations.DecodeAndEncodeAgree := by
  intro w i
  refine ⟨fun h => ?encoded, fun h => h ▸ decode_encode i⟩
  case encoded =>
    rw [decode_eq] at h
    split at h
    next hrsv =>
      obtain ⟨hop, harg⟩ := opcode_arg_of_decodeOpcode h
      rw [encode, hop, harg, ← hrsv, wordOf_fieldsOf]
    next => cases h

/-! ### Which words name no command -/

/-- R73.3: a command with no operand refuses a nonzero one. -/
theorem decodePlain_eq_error_iff (arg : Byte) (i : Instr) : (∃ e, decodePlain arg i = .error e) ↔ arg.toNat ≠ 0 := by
  have hzero : arg = 0 ↔ arg.toNat = 0 := ⟨fun h => h ▸ rfl, fun h => BitVec.eq_of_toNat_eq h⟩
  unfold decodePlain
  split <;> simp_all

/-- R73.4: an enable command refuses a nonzero `ARG[7:1]`. -/
theorem decodeEnable_eq_error_iff (arg : Byte) (i : Bool → Instr) :
    (∃ e, decodeEnable arg i = .error e) ↔ arg.toNat / 2 ≠ 0 := by
  have hzero := extractLsb'_one_eq_zero_iff arg
  unfold decodeEnable
  split <;> simp_all

/-- R73: the opcodes and operands that name no command. -/
theorem decodeOpcode_eq_error_iff (op : BitVec 4) (arg : Byte) : (∃ e, decodeOpcode op arg = .error e) ↔
    (op.toNat = 0 ∨ 0xB ≤ op.toNat) ∨
    ((op.toNat = 1 ∨ op.toNat = 2 ∨ op.toNat = 3 ∨ op.toNat = 9 ∨ op.toNat = 0xA) ∧ arg.toNat ≠ 0) ∨
    ((op.toNat = 4 ∨ op.toNat = 5 ∨ op.toNat = 6) ∧ arg.toNat / 2 ≠ 0) := by
  unfold decodeOpcode
  split
  case h_1 hop | h_2 hop | h_3 hop | h_9 hop | h_10 hop => rw [decodePlain_eq_error_iff, hop]; simp
  case h_4 hop | h_5 hop | h_6 hop => rw [decodeEnable_eq_error_iff, hop]; simp
  case h_7 hop | h_8 hop => rw [hop]; simp
  case h_11 =>
    have hlt : op.toNat < 16 := op.isLt
    exact iff_of_true ⟨_, rfl⟩ (.inl (by grind))

/-- Settles O3: the reserved field is checked first, and the opcode and operand decide the rest. -/
theorem wordIsIllegalExactlyWhen : Obligations.WordIsIllegalExactlyWhen := by
  intro w op rsv arg
  have hzero : (fieldsOf w).rsv = 0 ↔ rsv = 0 := ⟨fun h => congrArg BitVec.toNat h, fun h => BitVec.eq_of_toNat_eq h⟩
  rw [decode_eq]
  split
  next hrsv =>
    have hrsv0 : rsv = 0 := hzero.mp hrsv
    rw [decodeOpcode_eq_error_iff]
    simp only [hrsv0, ne_eq, not_true_eq_false, false_or]
    rfl
  next hrsv => exact iff_of_true ⟨_, rfl⟩ (.inr (.inl fun h => hrsv (hzero.mpr h)))

/-! ### How many words are legal -/

/-- R78: the legal words are the words of the commands. -/
noncomputable def legalWordEquivInstr : { w : Word // ∃ i, decode w = .ok i } ≃ Instr :=
  (Equiv.ofBijective (fun i => ⟨encode i, i, decode_encode i⟩) ⟨fun i j h => by
    have hword : encode i = encode j := congrArg Subtype.val h
    have hok : (.ok i : Except DecodeError Instr) = .ok j := by rw [← decode_encode, hword, decode_encode]
    exact Except.ok.inj hok,
    fun ⟨w, i, h⟩ => ⟨i, Subtype.ext ((decodeAndEncodeAgree w i).mp h).symm⟩⟩).symm

/-- R71, R72: the commands by their operand: none, a flag or a selector. -/
def instrEquivSum : Instr ≃ Fin 5 ⊕ Fin 3 × Bool ⊕ Bool × Byte where
  toFun
    | .init => .inl 0
    | .pon => .inl 1
    | .poff => .inl 2
    | .rdals => .inl 3
    | .rdprox => .inl 4
    | .aen en => .inr (.inl (0, en))
    | .pen en => .inr (.inl (1, en))
    | .wen en => .inr (.inl (2, en))
    | .again sel => .inr (.inr (false, sel))
    | .pgain sel => .inr (.inr (true, sel))
  invFun
    | .inl 0 => .init
    | .inl 1 => .pon
    | .inl 2 => .poff
    | .inl 3 => .rdals
    | .inl 4 => .rdprox
    | .inr (.inl (0, en)) => .aen en
    | .inr (.inl (1, en)) => .pen en
    | .inr (.inl (2, en)) => .wen en
    | .inr (.inr (false, sel)) => .again sel
    | .inr (.inr (true, sel)) => .pgain sel
  left_inv i := by cases i <;> rfl
  right_inv
    | .inl k => by fin_cases k <;> rfl
    | .inr (.inl (k, en)) => by fin_cases k <;> rfl
    | .inr (.inr (k, sel)) => by cases k <;> rfl

theorem card_byte : Nat.card Byte = 256 := (Nat.card_congr BitVec.equivFin.toEquiv).trans (Nat.card_fin _)

/-- R72: five commands with no operand, three with a flag, two with a selector. -/
theorem card_instr : Nat.card Instr = 523 := by
  rw [Nat.card_congr instrEquivSum, Nat.card_sum, Nat.card_sum, Nat.card_prod, Nat.card_prod, card_byte, Nat.card_fin,
    Nat.card_fin, Nat.card_eq_fintype_card, Fintype.card_bool]

/-- Settles O4: the legal words are counted by `card_instr`, and the illegal ones are the others of the 65,536. -/
theorem legalWordsAreCounted : Obligations.LegalWordsAreCounted := by
  classical
  have hlegal : Nat.card { w : Word // ∃ i, decode w = .ok i } = 523 := by
    rw [Nat.card_congr legalWordEquivInstr, card_instr]
  have hillegal (w : Word) : (∃ e, decode w = .error e) ↔ ¬ ∃ i, decode w = .ok i := by
    cases decode w <;> simp
  have hword : Nat.card Word = 65536 := (Nat.card_congr BitVec.equivFin.toEquiv).trans (Nat.card_fin _)
  have htotal := Nat.card_congr (Equiv.sumCompl fun w : Word => ∃ i, decode w = .ok i)
  rw [Nat.card_sum, hlegal, hword] at htotal
  refine ⟨hlegal, ?_⟩
  rw [Nat.card_congr (Equiv.subtypeEquivRight hillegal)]
  omega

end Sys2Proof.Proofs

/-! The assembler on the source line of a command (`30_encoding.md` R80 to R82): a mnemonic, a blank and three decimal
digits. The digits are those of the operand byte (`numeralByte_byteText`), and a line of a mnemonic and an operand
assembles as that mnemonic with that operand (`assemble_mnemonic_operand`). -/

namespace Sys2Proof.Proofs

open Sys2Proof.Machine

/-! ### Three decimal digits -/

/-- R80: a digit is its own lower case, is no blank and starts no comment or hexadecimal numeral, and has its value. -/
theorem digitChar_spec : ∀ n < 10, lowerChar (digitChar n) = digitChar n ∧ digitChar n ≠ ' ' ∧ digitChar n ≠ ';' ∧
    digitChar n ≠ 'x' ∧ digitValue 10 (digitChar n) = some n := by decide

/-- The three digits of a byte are below 10. -/
theorem byte_digits_lt (b : Byte) : b.toNat / 100 < 10 ∧ b.toNat / 10 % 10 < 10 ∧ b.toNat % 10 < 10 := by
  have := b.isLt
  omega

/-- R80: a byte's numeral is its own lower case and starts no comment. -/
theorem byteText_plain (b : Byte) : (byteText b).map lowerChar = byteText b ∧ ';' ∉ byteText b := by
  obtain ⟨h2, h1, h0⟩ := byte_digits_lt b
  obtain ⟨hl2, -, hs2, -⟩ := digitChar_spec _ h2
  obtain ⟨hl1, -, hs1, -⟩ := digitChar_spec _ h1
  obtain ⟨hl0, -, hs0, -⟩ := digitChar_spec _ h0
  exact ⟨by simp [byteText, hl2, hl1, hl0], by simp [byteText, hs2.symm, hs1.symm, hs0.symm]⟩

/-- R80: a byte's numeral ends in a digit, so what ends in it ends in no blank. -/
theorem dropTrailingBlanks_append_byteText (l : List Char) (b : Byte) :
    dropTrailingBlanks (l ++ byteText b) = l ++ byteText b := by
  obtain ⟨-, hlast, -⟩ := digitChar_spec _ (byte_digits_lt b).2.2
  simp [dropTrailingBlanks, byteText, hlast]

/-- R80: a numeral of three digits is no hexadecimal one. -/
theorem numeral_byteText (b : Byte) : numeral (byteText b) = some b.toNat := by
  obtain ⟨h2, h1, h0⟩ := byte_digits_lt b
  obtain ⟨-, -, -, -, hv2⟩ := digitChar_spec _ h2
  obtain ⟨-, -, -, hx, hv1⟩ := digitChar_spec _ h1
  obtain ⟨-, -, -, -, hv0⟩ := digitChar_spec _ h0
  have hdecimal : numeral (byteText b) = digits 10 0 (byteText b) := by
    unfold numeral byteText
    split <;> simp_all
  have hvalue : 10 * (10 * (10 * 0 + b.toNat / 100) + b.toNat / 10 % 10) + b.toNat % 10 = b.toNat := by omega
  rw [hdecimal]
  simp only [byteText, digits, hv2, hv1, hv0, hvalue]

/-- R80: the numeral of a byte has that byte's value. -/
theorem numeralByte_byteText (b : Byte) : numeralByte (byteText b) = some b := by
  have hle : b.toNat ≤ 255 := Nat.le_of_lt_succ b.isLt
  simp [numeralByte, numeral_byteText, hle]

/-- R80, R81: an operand of three characters is none of the names. -/
theorem operand_of_three (a b c : Char) : enableOperand [a, b, c] = numeralByte [a, b, c] ∧
    alsOperand [a, b, c] = numeralByte [a, b, c] ∧ proxOperand [a, b, c] = numeralByte [a, b, c] := by
  refine ⟨?enable, ?als, ?prox⟩
  case enable => unfold enableOperand; split <;> simp_all
  case als => unfold alsOperand; split <;> simp_all
  case prox => unfold proxOperand; split <;> simp_all

/-! ### A line of a mnemonic and an operand -/

/-- R80: the first blank ends the mnemonic. -/
theorem splitCommand_append {mnemonic : List Char} (operand : List Char) (h : ' ' ∉ mnemonic) :
    splitCommand (mnemonic ++ ' ' :: operand) = (mnemonic, some operand) := by
  induction mnemonic with
  | nil => rfl
  | cons c rest ih =>
    obtain ⟨hc, hrest⟩ : ' ' ≠ c ∧ ' ' ∉ rest := by simpa using h
    simp [splitCommand, hc.symm, ih hrest]

/-- R80: a mnemonic in any case, a blank and the numeral of a byte. -/
theorem assemble_mnemonic_operand {l mnemonic : List Char} {b : Byte} {w : Word}
    (hword : asmCommand mnemonic (some (byteText b)) = some w) (hcase : l.map lowerChar = mnemonic)
    (hcomment : ';' ∉ l) (hblank : ' ' ∉ mnemonic) : assemble (l ++ [' '] ++ byteText b) = some w := by
  obtain ⟨hlower, hdigits⟩ := byteText_plain b
  have hnone : ';' ∉ l ++ [' '] ++ byteText b := by simp [hcomment, hdigits]
  have hcaseAll : (l ++ [' '] ++ byteText b).map lowerChar = mnemonic ++ [' '] ++ byteText b := by
    rw [List.map_append, List.map_append, hcase, hlower]
    rfl
  rw [assemble, dropComment_of_noSemicolon _ hnone, hcaseAll, dropTrailingBlanks_append_byteText, List.append_assoc,
    List.singleton_append, splitCommand_append _ hblank, hword]

/-- R71, R80: a mnemonic with the numeral of a byte has the word of its opcode with that operand. -/
theorem asmCommand_byteText (b : Byte) :
    asmCommand ['a', 'e', 'n'] (some (byteText b)) = some (wordOf { arg := b, rsv := 0, op := 0x4 }) ∧
    asmCommand ['p', 'e', 'n'] (some (byteText b)) = some (wordOf { arg := b, rsv := 0, op := 0x5 }) ∧
    asmCommand ['w', 'e', 'n'] (some (byteText b)) = some (wordOf { arg := b, rsv := 0, op := 0x6 }) ∧
    asmCommand ['a', 'g', 'a', 'i', 'n'] (some (byteText b)) = some (wordOf { arg := b, rsv := 0, op := 0x7 }) ∧
    asmCommand ['p', 'g', 'a', 'i', 'n'] (some (byteText b)) = some (wordOf { arg := b, rsv := 0, op := 0x8 }) := by
  obtain ⟨henable, hals, hprox⟩ : enableOperand (byteText b) = some b ∧ alsOperand (byteText b) = some b ∧
      proxOperand (byteText b) = some b := by
    rw [← numeralByte_byteText b]
    exact operand_of_three _ _ _
  simp only [asmCommand, asmEnable, asmGain, henable, hals, hprox, asmWord, and_self]

/-- Settles O5: a command with no operand is a line of one word (`assemble_oneWord`), any other a mnemonic and the numeral
of its operand byte (`assemble_mnemonic_operand`). -/
theorem assemblerWritesTheCommandWord : Obligations.AssemblerWritesTheCommandWord := by
  intro i
  cases i with
  | init => exact assemble_oneWord (mnemonic := ['i', 'n', 'i', 't']) rfl rfl (by simp [sourceText]) (by simp)
  | pon => exact assemble_oneWord (mnemonic := ['p', 'o', 'n']) rfl rfl (by simp [sourceText]) (by simp)
  | poff => exact assemble_oneWord (mnemonic := ['p', 'o', 'f', 'f']) rfl rfl (by simp [sourceText]) (by simp)
  | rdals => exact assemble_oneWord (mnemonic := ['r', 'd', 'a', 'l', 's']) rfl rfl (by simp [sourceText]) (by simp)
  | rdprox => exact assemble_oneWord (mnemonic := ['r', 'd', 'p', 'r', 'o', 'x']) rfl rfl (by simp [sourceText]) (by simp)
  | aen en =>
    obtain ⟨hword, -⟩ := asmCommand_byteText (enableArg en)
    exact assemble_mnemonic_operand (l := ['A', 'E', 'N']) hword rfl (by simp) (by simp)
  | pen en =>
    obtain ⟨-, hword, -⟩ := asmCommand_byteText (enableArg en)
    exact assemble_mnemonic_operand (l := ['P', 'E', 'N']) hword rfl (by simp) (by simp)
  | wen en =>
    obtain ⟨-, -, hword, -⟩ := asmCommand_byteText (enableArg en)
    exact assemble_mnemonic_operand (l := ['W', 'E', 'N']) hword rfl (by simp) (by simp)
  | again sel =>
    obtain ⟨-, -, -, hword, -⟩ := asmCommand_byteText sel
    exact assemble_mnemonic_operand (l := ['A', 'G', 'A', 'I', 'N']) hword rfl (by simp) (by simp)
  | pgain sel =>
    obtain ⟨-, -, -, -, hword⟩ := asmCommand_byteText sel
    exact assemble_mnemonic_operand (l := ['P', 'G', 'A', 'I', 'N']) hword rfl (by simp) (by simp)

end Sys2Proof.Proofs

/-! What a command run as one step can do, said once (`exec_cases`): it completes with OK in `okRun`, every transaction
answered, or its first failing transaction ends it in its `failedRun`. The claims about every command are read off from
these two states. -/

namespace Sys2Proof.Proofs

open Sys2Proof.Machine Sys2Proof.Safety Sys2Proof.Laws

/-! ### The values read along a list of requests -/

/-- R50: the second byte of a draw, 0 on a failing one as in `byteOf`. -/
def secondByteOf (d : Draw) : Byte :=
  match d with
  | .ok _ b1 => b1
  | .fail => 0

/-- R27: the values the first `k` transactions of a list read, for the answers `d`. -/
def readings (reqs : List BusReq) (d : Nat → Draw) (k : Nat) : List Word :=
  match k with
  | 0 => []
  | k + 1 => readings reqs d k ++ match reqs[k]? with
    | some req => readValue req (byteOf (d k)) (secondByteOf (d k))
    | none => []

/-- R27: an answered transaction adds the value it reads. -/
theorem readings_succ {reqs : List BusReq} {d : Nat → Draw} {k : Nat} {req : BusReq} {b0 b1 : Byte}
    (hreq : reqs[k]? = some req) (hd : d k = .ok b0 b1) :
    readings reqs d (k + 1) = readings reqs d k ++ readValue req b0 b1 := by
  rw [readings, hreq, hd]
  rfl

/-- R52: the byte that a 1-byte read holds, zero-extended. -/
theorem byteAt_of_getElem? {vals : List Word} {j : Nat} {b : Byte} (h : vals[j]? = some (b.setWidth 16)) :
    byteAt vals j = b := by
  simp [byteAt, valAt, h]

/-! ### The completed run of a command -/

/-- R131 and the tables of R90, R100, R101, R116, R117: how many transactions a command has. -/
theorem length_plannedRequests (i : Instr) (d : Nat → Draw) : (plannedRequests i d).length = txnCount i := by
  cases i <;> rfl

/-- R140: what a command leaves when all its transactions are answered: its transcript and its settle wait in the trace,
its register written, and the code OK. -/
def okRun (i : Instr) (s : State) : State :=
  complete .ok (commit i (readings (plannedRequests i s.drawAt) s.drawAt (txnCount i))
    (after s (txnCount i) (commandTranscript i s.drawAt ++ settleEvents i)))

/-- R140: at the end of its list a command has its transcript in the trace. -/
theorem afterRequests_txnCount (i : Instr) (s : State) :
    afterRequests (plannedRequests i s.drawAt) s (txnCount i) = after s (txnCount i) (commandTranscript i s.drawAt) := by
  rw [← length_plannedRequests i s.drawAt]
  exact afterRequests_length _ s

/-- R96: a command without a settle wait ends with its transcript. -/
theorem okRun_eq_of_no_settle {i : Instr} (hi : settles i = false) (s : State) :
    okRun i s = complete .ok (commit i (readings (plannedRequests i s.drawAt) s.drawAt (txnCount i))
      (afterRequests (plannedRequests i s.drawAt) s (txnCount i))) := by
  rw [okRun, settleEvents, hi, afterRequests_txnCount]
  simp

/-- R91, R134: a command with a settle wait. -/
theorem okRun_eq_of_settles {i : Instr} (hi : settles i = true) (s : State) :
    okRun i s = complete .ok
      (((afterRequests (plannedRequests i s.drawAt) s (txnCount i)).log .settleReq).log .settleDone) := by
  have hcommit : ∀ vals t, commit i vals t = t := by
    cases i with
    | init | pon => exact fun _ _ => rfl
    | poff | aen | pen | wen | again | pgain | rdals | rdprox => cases hi
  rw [okRun, settleEvents, hi, afterRequests_txnCount, hcommit, log_after, log_after, List.append_assoc]
  rfl

section
variable {reqs : List BusReq} {r : SensorReg} {f : Byte → Byte} {s : State} {k : Nat}

/-- R51, R52: a register read, changed and written back at the transactions from `k` on, all answered. -/
theorem registerUpdate_afterRequests_ok (hsel : reqs[k]? = some (selectReq r)) (hread : reqs[k + 1]? = some (.read 1))
    (hwrite : reqs[k + 2]? = some (writeReq r (f (byteOf (s.drawAt (k + 1)))))) (h : AllAnswered s (k + 3)) :
    registerUpdate r f (afterRequests reqs s k) = .done () (afterRequests reqs s (k + 3)) := by
  obtain ⟨a, b, h0⟩ := drawAt_ok_of_allAnswered h (show k < k + 3 by omega)
  obtain ⟨c, x, h1⟩ := drawAt_ok_of_allAnswered h (show k + 1 < k + 3 by omega)
  obtain ⟨p, q, h2⟩ := drawAt_ok_of_allAnswered h (show k + 2 < k + 3 by omega)
  have hwrite' : reqs[k + 2]? = some (writeReq r (f c)) := by rwa [h1] at hwrite
  rw [registerUpdate, memRead1_answered hsel hread h0 h1, andThen_done, memWrite_afterRequests_ok hwrite' h2]

end

/-- R90 to R95: a control command that is answered. -/
theorem ControlCommand.exec_ok {i : Instr} {mask : Byte} {set : Bool} (hi : ControlCommand i mask set) {s : State}
    (h : AllAnswered s 3) : exec i s = .next (okRun i s) := by
  have hcount : txnCount i = 3 := by cases hi <;> rfl
  have hcommit : ∀ vals t, commit i vals t = t := by cases hi <;> exact fun _ _ => rfl
  have hplan := hi.plannedRequests_eq s.drawAt
  have hend := afterRequests_txnCount i s
  rw [hcount, hplan] at hend
  rw [exec_eq_exec_afterRequests, hi.exec_eq, hplan, updateEnable_afterRequests_ok rfl rfl rfl h, andThen_done,
    Nat.zero_add, hend, settleWait_after, finish_done, okRun, hcommit, hcount]

/-- R131: INIT that is answered. -/
theorem exec_init_ok {s : State} (h : AllAnswered s 15) : exec .init s = .next (okRun .init s) := by
  have answered {n : Nat} (hn : n ≤ 15) : AllAnswered s n := fun j hj => h j (Nat.lt_of_lt_of_le hj hn)
  have hlist : (plannedRequests .init s.drawAt).drop 0 = memWritesRequests initWrites ++ _ :=
    plannedRequests_init s.drawAt
  have hwrites := memWrites_afterRequests_ok hlist (answered (show 9 ≤ 15 by omega))
  rw [okRun_eq_of_settles rfl, exec_eq_exec_afterRequests, exec, execInit, hwrites, andThen_done,
    show 0 + initWrites.length = 9 from rfl, updateEnable_afterRequests_ok rfl rfl rfl (answered (show 12 ≤ 15 by omega)),
    andThen_done, updateEnable_afterRequests_ok rfl rfl rfl h, andThen_done, settle, finish_done]
  rfl

/-- R100: AGAIN that is answered. -/
theorem exec_again_ok (sel : Byte) {s : State} (h : AllAnswered s 3) :
    exec (.again sel) s = .next (okRun (.again sel) s) := by
  rw [okRun_eq_of_no_settle rfl, exec_eq_exec_afterRequests, exec_again_eq, plannedRequests_again,
    registerUpdate_afterRequests_ok rfl rfl rfl h, andThen_done]
  rfl

/-- R101: PGAIN that is answered. -/
theorem exec_pgain_ok (sel : Byte) {s : State} (h : AllAnswered s 3) :
    exec (.pgain sel) s = .next (okRun (.pgain sel) s) := by
  rw [okRun_eq_of_no_settle rfl, exec_eq_exec_afterRequests, exec_pgain_eq, plannedRequests_pgain,
    registerUpdate_afterRequests_ok rfl rfl rfl h, andThen_done]
  rfl

/-- R116: the values RDALS reads. -/
theorem readings_rdals (d : Nat → Draw) : readings (plannedRequests .rdals d) d 6 =
    [littleEndian (byteOf (d 1)) (secondByteOf (d 1)), littleEndian (byteOf (d 3)) (secondByteOf (d 3)),
      (byteOf (d 5)).setWidth 16] := rfl

/-- R117: the value RDPROX reads. -/
theorem readings_rdprox (d : Nat → Draw) : readings (plannedRequests .rdprox d) d 2 =
    [littleEndian (byteOf (d 1)) (secondByteOf (d 1))] := rfl

/-- R116: RDALS that is answered. -/
theorem exec_rdals_ok {s : State} (h : AllAnswered s 6) : exec .rdals s = .next (okRun .rdals s) := by
  obtain ⟨a0, b0, h0⟩ := drawAt_ok_of_allAnswered h (show 0 < 6 by omega)
  obtain ⟨lo0, hi0, h1⟩ := drawAt_ok_of_allAnswered h (show 1 < 6 by omega)
  obtain ⟨a2, b2, h2⟩ := drawAt_ok_of_allAnswered h (show 2 < 6 by omega)
  obtain ⟨lo1, hi1, h3⟩ := drawAt_ok_of_allAnswered h (show 3 < 6 by omega)
  obtain ⟨a4, b4, h4⟩ := drawAt_ok_of_allAnswered h (show 4 < 6 by omega)
  obtain ⟨atime, x, h5⟩ := drawAt_ok_of_allAnswered h (show 5 < 6 by omega)
  rw [okRun_eq_of_no_settle rfl, exec_eq_exec_afterRequests, exec, execRdals, memRead2_answered rfl rfl h0 h1,
    andThen_done, memRead2_answered rfl rfl h2 h3, andThen_done, memRead1_answered rfl rfl h4 h5, andThen_done, txnCount,
    readings_rdals, h1, h3, h5, commit, byteAt_of_getElem? (b := atime) rfl]
  rfl

/-- R117: RDPROX that is answered. -/
theorem exec_rdprox_ok {s : State} (h : AllAnswered s 2) : exec .rdprox s = .next (okRun .rdprox s) := by
  obtain ⟨a, b, h0⟩ := drawAt_ok_of_allAnswered h (show 0 < 2 by omega)
  obtain ⟨lo, hi, h1⟩ := drawAt_ok_of_allAnswered h (show 1 < 2 by omega)
  rw [okRun_eq_of_no_settle rfl, exec_eq_exec_afterRequests, exec, execRdprox, memRead2_answered rfl rfl h0 h1,
    andThen_done, txnCount, readings_rdprox, h1]
  rfl

/-! ### Every command -/

/-- R140: a command whose transactions are answered ends in its `okRun`. -/
theorem exec_ok {i : Instr} {s : State} (h : AllAnswered s (txnCount i)) : exec i s = .next (okRun i s) := by
  cases i with
  | init => exact exec_init_ok h
  | pon => exact ControlCommand.pon.exec_ok h
  | poff => exact ControlCommand.poff.exec_ok h
  | aen en => exact (ControlCommand.aen en).exec_ok h
  | pen en => exact (ControlCommand.pen en).exec_ok h
  | wen en => exact (ControlCommand.wen en).exec_ok h
  | again sel => exact exec_again_ok sel h
  | pgain sel => exact exec_pgain_ok sel h
  | rdals => exact exec_rdals_ok h
  | rdprox => exact exec_rdprox_ok h

/-- R141: a command whose transaction `k` is the first to fail ends in its `failedRun`. -/
theorem exec_failed {i : Instr} {s : State} {k : Nat} (hk : k < txnCount i) (h : FirstFailure s k) :
    exec i s = .next (failedRun i s k) :=
  transportFailureEndsTheCommand i s k (by rwa [length_plannedRequests]) h

/-- R140, R141: what a command run as one step can do. -/
theorem exec_cases (i : Instr) (s : State) :
    (AllAnswered s (txnCount i) ∧ exec i s = .next (okRun i s)) ∨
    (∃ k, k < txnCount i ∧ FirstFailure s k ∧ exec i s = .next (failedRun i s k)) := by
  obtain hall | ⟨k, hk, hfirst⟩ := allAnswered_or_firstFailure s (txnCount i)
  · exact .inl ⟨hall, exec_ok hall⟩
  · exact .inr ⟨k, hk, hfirst, exec_failed hk hfirst⟩

end Sys2Proof.Proofs

/-! The claims about every command run as one step, from `exec_cases`: completion (R140), the owners of the block's
registers (R21, R22, R26), and the two gains as inputs of RDALS and RDPROX alone (R24). -/

namespace Sys2Proof.Proofs

open Sys2Proof.Machine Sys2Proof.Safety Sys2Proof.Laws

/-! ### What a completed command writes -/

@[simp] theorem commit_trace (i : Instr) (vals : List Word) (s : State) : (commit i vals s).trace = s.trace := by
  cases i <;> rfl
@[simp] theorem commit_schedule (i : Instr) (vals : List Word) (s : State) : (commit i vals s).schedule = s.schedule := by
  cases i <;> rfl
@[simp] theorem commit_fault (i : Instr) (vals : List Word) (s : State) : (commit i vals s).fault = s.fault := by
  cases i <;> rfl
@[simp] theorem commit_answers (i : Instr) (vals : List Word) (s : State) : (commit i vals s).answers = s.answers := by
  cases i <;> rfl
@[simp] theorem commit_draws (i : Instr) (vals : List Word) (s : State) : (commit i vals s).draws = s.draws := by
  cases i <;> rfl

/-- R21: only AGAIN writes ALS_GAIN. -/
theorem commit_alsGain_cases (i : Instr) (vals : List Word) (s : State) :
    (commit i vals s).alsGain = s.alsGain ∨ ∃ sel, i = .again sel ∧ (commit i vals s).alsGain = (alsSelect sel).2 := by
  cases i with
  | again sel => exact .inr ⟨sel, rfl, rfl⟩
  | init | pon | poff | aen | pen | wen | pgain | rdals | rdprox => exact .inl rfl

/-- R22: only PGAIN writes PROX_GAIN. -/
theorem commit_proxGain_cases (i : Instr) (vals : List Word) (s : State) :
    (commit i vals s).proxGain = s.proxGain ∨ ∃ sel, i = .pgain sel ∧ (commit i vals s).proxGain = (proxSelect sel).2 := by
  cases i with
  | pgain sel => exact .inr ⟨sel, rfl, rfl⟩
  | init | pon | poff | aen | pen | wen | again | rdals | rdprox => exact .inl rfl

/-- R26: only RDALS and RDPROX write RESULT. -/
theorem commit_result_cases (i : Instr) (vals : List Word) (s : State) :
    (commit i vals s).result = s.result ∨
    (i = .rdals ∧ (commit i vals s).result = alsResult (valAt vals 0) (valAt vals 1) (byteAt vals 2) s.alsGain) ∨
    (i = .rdprox ∧ (commit i vals s).result = proxResult (valAt vals 0) s.proxGain) := by
  cases i with
  | rdals => exact .inr (.inl ⟨rfl, rfl⟩)
  | rdprox => exact .inr (.inr ⟨rfl, rfl⟩)
  | init | pon | poff | aen | pen | wen | again | pgain => exact .inl rfl

@[simp] theorem okRun_trace (i : Instr) (s : State) :
    (okRun i s).trace = s.trace ++ (commandTranscript i s.drawAt ++ settleEvents i) := by
  simp [okRun]

/-! ### Completion and ownership -/

/-- R140: a command that completes with OK has had every transaction answered. -/
theorem answered_of_status_ok {i : Instr} {s t : State} (h : exec i s = .next t) (hok : t.status = 0x00) :
    AllAnswered s (txnCount i) ∧ t = okRun i s := by
  obtain ⟨hall, hexec⟩ | ⟨k, -, -, hexec⟩ := exec_cases i s <;> obtain rfl := Host.Outcome.next.inj (h ▸ hexec)
  · exact ⟨hall, rfl⟩
  · exact absurd hok (by decide : (0x01 : Byte) ≠ 0x00)

/-- Settles O31: the two runs of `exec_cases` are idle, with the code OK or TFAIL. -/
theorem everyCommandCompletes : Obligations.EveryCommandCompletes := by
  intro i s
  rw [length_plannedRequests]
  obtain ⟨hall, hexec⟩ | ⟨k, hk, ⟨-, hfail⟩, hexec⟩ := exec_cases i s
  · exact ⟨_, hexec, rfl, .inl rfl, iff_of_true rfl hall⟩
  · exact ⟨_, hexec, rfl, .inr rfl, iff_of_false (by decide : (0x01 : Byte) ≠ 0x00) fun hall => hall k hk hfail⟩

/-- Settles O48: a failed run writes no register, and a completed one those of `commit`. -/
theorem onlyTheOwnersWriteARegister : Obligations.OnlyTheOwnersWriteARegister := by
  intro i s t h
  obtain ⟨-, hexec⟩ | ⟨k, -, -, hexec⟩ := exec_cases i s <;> obtain rfl := Host.Outcome.next.inj (h ▸ hexec)
  · refine ⟨fun hne => ⟨rfl, ?als⟩, fun hne => ⟨rfl, ?prox⟩, fun hne => ⟨rfl, ?result⟩, by simp [okRun], by simp [okRun],
      by simp⟩
    case als =>
      obtain hsame | ⟨sel, hi, -⟩ := commit_alsGain_cases i _ (after s _ _)
      · exact absurd hsame hne
      · exact ⟨sel, hi⟩
    case prox =>
      obtain hsame | ⟨sel, hi, -⟩ := commit_proxGain_cases i _ (after s _ _)
      · exact absurd hsame hne
      · exact ⟨sel, hi⟩
    case result =>
      obtain hsame | ⟨hi, -⟩ | ⟨hi, -⟩ := commit_result_cases i _ (after s _ _)
      · exact absurd hsame hne
      · exact .inl hi
      · exact .inr hi
  · exact ⟨fun hne => absurd rfl hne, fun hne => absurd rfl hne, fun hne => absurd rfl hne, rfl, rfl,
      List.prefix_append _ _⟩

/-! ### The gains as inputs -/

/-- R141: two runs of a command on the same answers complete both, or fail both at the same transaction. -/
theorem exec_alike {i : Instr} {s s' t u : State} (hdraws : s'.drawAt = s.drawAt) (ht : exec i s = .next t)
    (hu : exec i s' = .next u) :
    (t = okRun i s ∧ u = okRun i s') ∨ ∃ k, t = failedRun i s k ∧ u = failedRun i s' k := by
  obtain ⟨hall, hexec⟩ | ⟨k, hk, hfirst, hexec⟩ := exec_cases i s <;> obtain rfl := Host.Outcome.next.inj (ht ▸ hexec)
  · have hall' : AllAnswered s' (txnCount i) := by rwa [AllAnswered, hdraws]
    exact .inl ⟨rfl, Host.Outcome.next.inj (hu ▸ exec_ok hall')⟩
  · have hfirst' : FirstFailure s' k := by rwa [FirstFailure, AllAnswered, hdraws]
    exact .inr ⟨k, rfl, Host.Outcome.next.inj (hu ▸ exec_failed hk hfirst')⟩

/-- Settles O51: of the completed runs RDALS alone computes from ALS_GAIN, and a failed run computes nothing. -/
theorem onlyRdalsReadsAlsGain : Obligations.OnlyRdalsReadsAlsGain := by
  intro i s t u g ht hu
  obtain ⟨rfl, rfl⟩ | ⟨k, rfl, rfl⟩ := exec_alike (s := s) (s' := { s with alsGain := g }) rfl ht hu
  · refine ⟨rfl, by rw [okRun_trace, okRun_trace]; rfl, by cases i <;> rfl, fun hi => ?result⟩
    case result =>
      cases i with
      | rdals => exact absurd rfl hi
      | init | pon | poff | aen | pen | wen | again | pgain | rdprox => rfl
  · exact ⟨rfl, rfl, rfl, fun _ => rfl⟩

/-- Settles O52: of the completed runs RDPROX alone computes from PROX_GAIN, and a failed run computes nothing. -/
theorem onlyRdproxReadsProxGain : Obligations.OnlyRdproxReadsProxGain := by
  intro i s t u g ht hu
  obtain ⟨rfl, rfl⟩ | ⟨k, rfl, rfl⟩ := exec_alike (s := s) (s' := { s with proxGain := g }) rfl ht hu
  · refine ⟨rfl, by rw [okRun_trace, okRun_trace]; rfl, by cases i <;> rfl, fun hi => ?result⟩
    case result =>
      cases i with
      | rdprox => exact absurd rfl hi
      | init | pon | poff | aen | pen | wen | again | pgain | rdals => rfl
  · exact ⟨rfl, rfl, rfl, fun _ => rfl⟩

/-! ### The control and gain commands, whole -/

/-- Settles O22: AEN is the control command of the ALS enable bit. -/
theorem aenUpdatesAlsEnableBit : Obligations.AenUpdatesAlsEnableBit := by
  refine ⟨rfl, rfl, fun en s a b e x c d h0 h1 h2 => ?answered, fun en s k hk h => exec_control_failed (.aen en) hk h⟩
  case answered => cases en <;> exact exec_control_answered (.aen _) h0 h1 h2

/-- Settles O23: PEN is the control command of the proximity enable bit. -/
theorem penUpdatesProximityEnableBit : Obligations.PenUpdatesProximityEnableBit := by
  refine ⟨rfl, rfl, fun en s a b e x c d h0 h1 h2 => ?answered, fun en s k hk h => exec_control_failed (.pen en) hk h⟩
  case answered => cases en <;> exact exec_control_answered (.pen _) h0 h1 h2

/-- Settles O24: WEN is the control command of the wait enable bit. -/
theorem wenUpdatesWaitEnableBit : Obligations.WenUpdatesWaitEnableBit := by
  refine ⟨rfl, rfl, fun en s a b e x c d h0 h1 h2 => ?answered, fun en s k hk h => exec_control_failed (.wen en) hk h⟩
  case answered => cases en <;> exact exec_control_answered (.wen _) h0 h1 h2

/-- R101: PGAIN whose transactions are answered. -/
theorem exec_pgain_answered (sel : Byte) {s : State} {a b c x p q : Byte}
    (h0 : s.drawAt 0 = .ok a b) (h1 : s.drawAt 1 = .ok c x) (h2 : s.drawAt 2 = .ok p q) :
    exec (.pgain sel) s = .next { s.skipDraws 3 with
      status := 0x00, seq := .idle, proxGain := (proxSelect sel).2,
      trace := s.trace ++ [W1 0x0F, R1 c, W2 0xEF (mergeProxCode Config.pgainKeepMask (proxSelect sel).1 c)] } := by
  rw [exec_pgain_eq, registerUpdate_answered _ _ h0 h1 h2]
  rfl

/-- R46, R101: the multiplier the block records; 1 stands for the same as an unrecognised selector. -/
theorem proxSelect_eq (sel : Byte) : proxSelect sel =
    if sel = 2 then (0b01, 2) else if sel = 4 then (0b10, 4) else if sel = 8 then (0b11, 8) else (0b00, 1) := by
  unfold proxSelect
  split
  next h => obtain rfl : sel = 1 := BitVec.eq_of_toNat_eq h; rfl
  next h => obtain rfl : sel = 2 := BitVec.eq_of_toNat_eq h; rfl
  next h => obtain rfl : sel = 4 := BitVec.eq_of_toNat_eq h; rfl
  next h => obtain rfl : sel = 8 := BitVec.eq_of_toNat_eq h; rfl
  next h2 h4 h8 =>
    rw [if_neg fun h => h2 (congrArg BitVec.toNat h), if_neg fun h => h4 (congrArg BitVec.toNat h),
      if_neg fun h => h8 (congrArg BitVec.toNat h)]

/-- Settles O26: `exec_pgain_answered` for the code and multiplier of the selector, and `exec_pgain_failed`. -/
theorem pgainMergesCodeAndRecordsMultiplier : Obligations.PgainMergesCodeAndRecordsMultiplier := by
  refine ⟨encode_pgain, fun sel s a b c x p q code m hsel h0 h1 h2 => ?answered,
    fun sel s k hk h => exec_pgain_failed sel hk h⟩
  case answered =>
    obtain ⟨rfl, rfl⟩ : code = (proxSelect sel).1.setWidth 8 ∧ m = (proxSelect sel).2 := by
      obtain ⟨rfl, rfl, rfl⟩ | ⟨rfl, rfl, rfl⟩ | ⟨rfl, rfl, rfl⟩ | ⟨rfl, rfl, rfl⟩ | ⟨-, h2, h4, h8, rfl, rfl⟩ := hsel
      · exact ⟨rfl, rfl⟩
      · exact ⟨rfl, rfl⟩
      · exact ⟨rfl, rfl⟩
      · exact ⟨rfl, rfl⟩
      · rw [proxSelect_eq, if_neg h2, if_neg h4, if_neg h8]
        exact ⟨rfl, rfl⟩
    exact exec_pgain_answered sel h0 h1 h2

/-! ### The field a gain command merges -/

/-- R70: the value of two fields one above the other. -/
theorem toNat_append_eq {n m : Nat} (x : BitVec n) (y : BitVec m) : (x ++ y).toNat = x.toNat * 2 ^ m + y.toNat := by
  rw [BitVec.toNat_append, ← Nat.shiftLeft_add_eq_or_of_lt y.isLt, Nat.shiftLeft_eq]

/-- R100: the code in bits 1:0, the byte read in bits 7:2. -/
theorem mergeAlsCode_eq_append (code : BitVec 2) (c : Byte) : mergeAlsCode code c = c.extractLsb' 2 6 ++ code := by
  refine BitVec.eq_of_getLsbD_eq fun j hj => ?_
  rw [BitVec.getLsbD_append, mergeAlsCode]
  interval_cases j <;> simp

/-- R101: under the decided keep mask, the code in bits 3:2 and the byte read around it. -/
theorem mergeProxCode_eq_append (code : BitVec 2) (c : Byte) :
    mergeProxCode Config.pgainKeepMask code c = c.extractLsb' 4 4 ++ (code ++ c.extractLsb' 0 2) := by
  refine BitVec.eq_of_getLsbD_eq fun j hj => ?_
  rw [BitVec.getLsbD_append, BitVec.getLsbD_append, mergeProxCode, Config.pgainKeepMask]
  interval_cases j <;> simp

/-- R100: the merged byte as a number. -/
theorem mergeAlsCode_toNat (sel c : Byte) :
    (mergeAlsCode (alsSelect sel).1 c).toNat = c.toNat / 4 * 4 + (alsCodeOf sel).toNat := by
  have hc := c.isLt
  rw [mergeAlsCode_eq_append, toNat_append_eq, ← alsSelect_code, BitVec.toNat_setWidth_of_le (by decide),
    BitVec.extractLsb'_toNat, Nat.shiftRight_eq_div_pow]
  omega

/-- R101: the merged byte as a number. -/
theorem mergeProxCode_toNat (sel c : Byte) : (mergeProxCode Config.pgainKeepMask (proxSelect sel).1 c).toNat =
    c.toNat / 16 * 16 + (proxCodeOf sel).toNat * 4 + c.toNat % 4 := by
  have hc := c.isLt
  rw [mergeProxCode_eq_append, toNat_append_eq, toNat_append_eq, ← proxSelect_code,
    BitVec.toNat_setWidth_of_le (by decide), BitVec.extractLsb'_toNat, BitVec.extractLsb'_toNat,
    Nat.shiftRight_eq_div_pow]
  omega

/-- R140: the select and the write of a gain command that completes with OK. -/
theorem select_write_of_status_ok {i : Instr} {s t : State} (hcount : txnCount i = 3) (h : exec i s = .next t)
    (hok : t.status = 0x00) : (∃ a b, s.drawAt 0 = .ok a b) ∧ ∃ p q, s.drawAt 2 = .ok p q := by
  obtain ⟨hall, -⟩ := answered_of_status_ok h hok
  exact ⟨drawAt_ok_of_allAnswered hall (by omega), drawAt_ok_of_allAnswered hall (by omega)⟩

/-- Settles O34: a completed gain command writes its merged byte, whose fields are read off from its value. -/
theorem gainCommandsMergeTheirField : Obligations.GainCommandsMergeTheirField := by
  intro sel s t c x h1
  refine ⟨fun hexec hok => ?again, fun hexec hok => ?pgain⟩
  case again =>
    obtain ⟨⟨a, b, h0⟩, p, q, h2⟩ := select_write_of_status_ok rfl hexec hok
    obtain rfl := Host.Outcome.next.inj (hexec ▸ exec_again_answered sel h0 h1 h2)
    have hcode : (alsCodeOf sel).toNat < 4 := by rw [← alsSelect_code, BitVec.toNat_setWidth_of_le (by decide)]; omega
    refine ⟨_, rfl, ?_, ?_⟩ <;> rw [mergeAlsCode_toNat] <;> omega
  case pgain =>
    obtain ⟨⟨a, b, h0⟩, p, q, h2⟩ := select_write_of_status_ok rfl hexec hok
    obtain rfl := Host.Outcome.next.inj (hexec ▸ exec_pgain_answered sel h0 h1 h2)
    have hcode : (proxCodeOf sel).toNat < 4 := by rw [← proxSelect_code, BitVec.toNat_setWidth_of_le (by decide)]; omega
    refine ⟨_, rfl, ?_, ?_, ?_⟩ <;> rw [mergeProxCode_toNat] <;> omega

end Sys2Proof.Proofs

/-! A command as one step per transaction (`10_state.md` R27), against the command as one step. With every agent that is
waited for moving in turn (`awaitedMove`), the command in flight passes through the states `inFlight` and ends in the run
of `exec_cases` (`exec_eq_iterate_awaitedMove`). What every move of the sequencer keeps, a command run as one step
therefore keeps too (`exec_induction`). -/

namespace Sys2Proof.Proofs

open Sys2Proof.Machine Sys2Proof.Safety Sys2Proof.Laws

/-! ### The transactions in flight are those of the tables -/

/-- R90 to R95: the sequencer runs the control command as an update of ENABLE. -/
theorem ControlCommand.request_eq {i : Instr} {mask : Byte} {set : Bool} (hi : ControlCommand i mask set)
    (vals : List Word) (k : Nat) : request i vals k = enableRequest mask set (byteAt vals 0) k := by
  cases hi <;> rfl

/-- R90: an update of ENABLE that holds the byte it has read. -/
theorem enableRequest_readings (mask : Byte) (set : Bool) (d : Nat → Draw) {k : Nat} (hk : k < 3) :
    enableRequest mask set (byteAt (readings (updateEnableRequests mask set d) d k) 0) k =
      (updateEnableRequests mask set d)[k]? := by
  match k with
  | 0 | 1 => rfl
  | 2 => rw [byteAt_of_getElem? (b := byteOf (d 1)) rfl]; rfl

/-- R100, R101: an update of CONTROL that holds the byte it has read. -/
theorem controlRequest_readings (f : Byte → Byte) (d : Nat → Draw) {k : Nat} (hk : k < 3) :
    controlRequest (f (byteAt (readings (registerUpdateRequests .control f d) d k) 0)) k =
      (registerUpdateRequests .control f d)[k]? := by
  match k with
  | 0 | 1 => rfl
  | 2 => rw [byteAt_of_getElem? (b := byteOf (d 1)) rfl]; rfl

/-- R131: INIT that holds the bytes it has read. -/
theorem initRequest_readings (d : Nat → Draw) {k : Nat} (hk : k < 15) :
    initRequest (readings (plannedRequests .init d) d k) k = (plannedRequests .init d)[k]? := by
  match k with
  | 0 | 1 | 2 | 3 | 4 | 5 | 6 | 7 | 8 | 9 | 10 | 12 | 13 => rfl
  | 11 => rw [initRequest, byteAt_of_getElem? (b := byteOf (d 10)) rfl]; rfl
  | 14 => rw [initRequest, byteAt_of_getElem? (b := byteOf (d 13)) rfl]; rfl

/-- R27: with the values read so far, the transaction on `bus_req` is the one of the command's table. -/
theorem request_readings (i : Instr) (d : Nat → Draw) (k : Nat) :
    request i (readings (plannedRequests i d) d k) k = (plannedRequests i d)[k]? := by
  have control {i : Instr} {mask : Byte} {set : Bool} (hi : ControlCommand i mask set) (hk : k < 3) :
      request i (readings (plannedRequests i d) d k) k = (plannedRequests i d)[k]? := by
    rw [hi.request_eq, hi.plannedRequests_eq, enableRequest_readings _ _ _ hk]
  obtain hk | hk := Nat.lt_or_ge k (txnCount i)
  · cases i with
    | init => exact initRequest_readings d hk
    | pon => exact control .pon hk
    | poff => exact control .poff hk
    | aen en => exact control (.aen en) hk
    | pen en => exact control (.pen en) hk
    | wen en => exact control (.wen en) hk
    | again sel => rw [plannedRequests_again]; exact controlRequest_readings _ d hk
    | pgain sel => rw [plannedRequests_pgain]; exact controlRequest_readings _ d hk
    | rdals => match k with | 0 | 1 | 2 | 3 | 4 | 5 => rfl
    | rdprox => match k with | 0 | 1 => rfl
  · rw [List.getElem?_eq_none (by rwa [length_plannedRequests]), ← Option.not_isSome_iff_eq_none, request_isSome]
    omega

/-! ### The states of a command in flight -/

/-- R27: the command has completed `k` transactions and its transaction `k` is on `bus_req`. -/
def inFlight (i : Instr) (s : State) (k : Nat) : State :=
  { afterRequests (plannedRequests i s.drawAt) s k with
    seq := .busy i k (readings (plannedRequests i s.drawAt) s.drawAt k) }

/-- R27: every command has a transaction. -/
theorem txnCount_pos (i : Instr) : 0 < txnCount i := by cases i <;> exact Nat.succ_pos _

/-- R131: no command has more transactions than INIT. -/
theorem txnCount_le (i : Instr) : txnCount i ≤ 15 := by cases i <;> simp [txnCount]

/-- R27: a started command has no transaction completed and no value read. -/
theorem startCommand_eq (i : Instr) (s : State) : startCommand i s = { s with seq := .busy i 0 [] } := by
  rw [startCommand, advance, if_pos (txnCount_pos i)]

/-- R27: a started command is in flight at its transaction 0. -/
theorem startCommand_eq_inFlight (i : Instr) (s : State) : startCommand i s = inFlight i s 0 := by
  rw [startCommand_eq, inFlight, afterRequests_zero]
  rfl

/-- R27: where the sequencer stood does not matter once it has advanced. -/
theorem advance_seq (cmd : Instr) (k : Nat) (vals : List Word) (s : State) (q : Seq) :
    advance cmd k vals { s with seq := q } = advance cmd k vals s := by
  have hcommit : complete .ok (commit cmd vals { s with seq := q }) = complete .ok (commit cmd vals s) := by
    cases cmd <;> rfl
  rw [advance, advance, hcommit]

section
variable {s : State} {cmd : Instr} {k : Nat} {vals : List Word} {req : BusReq} (hseq : s.seq = .busy cmd k vals)
  (hreq : request cmd vals k = some req)
include hseq hreq

/-- R50: the transaction in flight is answered. -/
theorem transportAnswers_of_ok {b0 b1 : Byte} (hd : s.drawAt 0 = .ok b0 b1) :
    transportAnswers s = advance cmd (k + 1) (vals ++ readValue req b0 b1) (transact req s) := by
  simp only [transportAnswers, hseq, hreq, hd]

/-- R141: the transaction in flight fails. -/
theorem transportAnswers_of_fail (hd : s.drawAt 0 = .fail) :
    transportAnswers s = raiseTransportFailure (transact req s) := by
  simp only [transportAnswers, hseq, hreq, hd]

end

section
variable {i : Instr} {s : State} {k : Nat} (hk : k < txnCount i)
include hk

/-- R27: the transaction on `bus_req` of a command in flight. -/
theorem exists_request_inFlight : ∃ req, (plannedRequests i s.drawAt)[k]? = some req ∧
    request i (readings (plannedRequests i s.drawAt) s.drawAt k) k = some req := by
  rw [request_readings]
  exact ⟨_, List.getElem?_eq_getElem (by rwa [length_plannedRequests]), List.getElem?_eq_getElem _⟩

/-- R50: transaction `k` is answered, and the sequencer advances. -/
theorem transportAnswers_inFlight_ok {b0 b1 : Byte} (hd : s.drawAt k = .ok b0 b1) :
    transportAnswers (inFlight i s k) = advance i (k + 1) (readings (plannedRequests i s.drawAt) s.drawAt (k + 1))
      (afterRequests (plannedRequests i s.drawAt) s (k + 1)) := by
  obtain ⟨req, hplan, hreq⟩ := exists_request_inFlight hk (s := s)
  have hdraw : (inFlight i s k).drawAt 0 = .ok b0 b1 :=
    (afterRequests_drawAt (plannedRequests i s.drawAt) s k 0).trans hd
  rw [transportAnswers_of_ok rfl hreq hdraw, readings_succ hplan hd, ← transact_afterRequests hplan]
  exact advance_seq i (k + 1) _ (transact req (afterRequests (plannedRequests i s.drawAt) s k)) _

/-- R141: transaction `k` fails, and the command ends as the command run as one step does. -/
theorem transportAnswers_inFlight_fail (hd : s.drawAt k = .fail) :
    transportAnswers (inFlight i s k) = failedRun i s k := by
  obtain ⟨req, hplan, hreq⟩ := exists_request_inFlight hk (s := s)
  have hdraw : (inFlight i s k).drawAt 0 = .fail :=
    (afterRequests_drawAt (plannedRequests i s.drawAt) s k 0).trans hd
  rw [transportAnswers_of_fail rfl hreq hdraw, ← finish_failed_afterRequests, ← transact_afterRequests hplan]
  rfl

end

/-! ### The agents that are waited for, one after another -/

/-- R180: the agent the block waits for moves. -/
def awaitedMove (s : State) : State :=
  match s.seq with
  | .idle => s
  | .busy _ _ _ => transportAnswers s
  | .settling _ => settleTimerDone s

/-- R172: an idle block waits for no agent but the host. -/
theorem iterate_awaitedMove_of_idle {s : State} (h : s.seq = .idle) (n : Nat) : awaitedMove^[n] s = s :=
  Function.iterate_fixed (by rw [awaitedMove, h]) n

/-- R27: an answered transaction that is not the last. -/
theorem awaitedMove_inFlight {i : Instr} {s : State} {k : Nat} (hk : k + 1 < txnCount i) (hd : Answered (s.drawAt k)) :
    awaitedMove (inFlight i s k) = inFlight i s (k + 1) := by
  cases hdraw : s.drawAt k with
  | fail => exact absurd hdraw hd
  | ok b0 b1 =>
    change transportAnswers (inFlight i s k) = _
    rw [transportAnswers_inFlight_ok (by omega) hdraw, advance, if_pos hk, inFlight]

/-- R27: `k` answered transactions after the start. -/
theorem iterate_awaitedMove_startCommand {i : Instr} {s : State} {k : Nat} (hk : k < txnCount i) (h : AllAnswered s k) :
    awaitedMove^[k] (startCommand i s) = inFlight i s k := by
  induction k with
  | zero => exact startCommand_eq_inFlight i s
  | succ k ih =>
    rw [Function.iterate_succ_apply', ih (by omega) fun j hj => h j (by omega),
      awaitedMove_inFlight hk (h k (Nat.lt_succ_self k))]

/-- R27: the last transaction is answered: the command completes, after the settle wait if it has one. -/
theorem awaitedMove_last {i : Instr} {s : State} {k : Nat} (hk : k + 1 = txnCount i) (hd : Answered (s.drawAt k)) :
    awaitedMove (awaitedMove (inFlight i s k)) = okRun i s := by
  cases hdraw : s.drawAt k with
  | fail => exact absurd hdraw hd
  | ok b0 b1 =>
    have hmove : awaitedMove (inFlight i s k) = advance i (txnCount i) _ (afterRequests _ s (txnCount i)) :=
      hk ▸ transportAnswers_inFlight_ok (by omega) hdraw
    rw [hmove, advance, if_neg (Nat.lt_irrefl _)]
    cases hi : settles i with
    | true => rw [okRun_eq_of_settles hi]; rfl
    | false => rw [okRun_eq_of_no_settle hi]; rfl

/-- R27, D1: a command run as one step ends where its agents take it one by one, in at most fifteen transactions and the
settle wait. -/
theorem exec_eq_iterate_awaitedMove (i : Instr) (s : State) {n : Nat} (hn : 16 ≤ n) :
    exec i s = .next (awaitedMove^[n] (startCommand i s)) := by
  have hcount : txnCount i ≤ 15 := txnCount_le i
  have ended {t : State} {m : Nat} (hidle : t.seq = .idle) (hm : m ≤ 16) (h : awaitedMove^[m] (startCommand i s) = t) :
      awaitedMove^[n] (startCommand i s) = t := by
    obtain ⟨j, rfl⟩ := Nat.exists_eq_add_of_le' (hm.trans hn)
    rw [Function.iterate_add_apply, h, iterate_awaitedMove_of_idle hidle]
  obtain ⟨hall, hexec⟩ | ⟨k, hk, ⟨hbefore, hfail⟩, hexec⟩ := exec_cases i s
  · obtain ⟨k, hk⟩ : ∃ k, k + 1 = txnCount i := Nat.exists_eq_add_one.mpr (txnCount_pos i) |>.imp fun _ h => h.symm
    have hend : awaitedMove^[k + 2] (startCommand i s) = okRun i s := by
      rw [Function.iterate_succ_apply', Function.iterate_succ_apply',
        iterate_awaitedMove_startCommand (by omega) fun j hj => hall j (by omega),
        awaitedMove_last hk (hall k (by omega))]
    rw [hexec, ended rfl (by omega) hend]
  · have hend : awaitedMove^[k + 1] (startCommand i s) = failedRun i s k := by
      rw [Function.iterate_succ_apply', iterate_awaitedMove_startCommand hk hbefore]
      exact transportAnswers_inFlight_fail hk hfail
    rw [hexec, ended rfl (by omega) hend]

/-- R27, D1: what a started command satisfies, and the moves of the transport and the settle timer keep, the command run
as one step ends with. -/
theorem exec_induction {P : State → Prop} {i : Instr} {s t : State} (h : exec i s = .next t)
    (hstart : P (startCommand i s)) (htransport : ∀ u, P u → P (transportAnswers u))
    (hsettle : ∀ u, P u → P (settleTimerDone u)) : P t := by
  have hmove (u : State) (hu : P u) : P (awaitedMove u) := by
    unfold awaitedMove
    split
    · exact hu
    · exact htransport u hu
    · exact hsettle u hu
  have hiter (n : Nat) : P (awaitedMove^[n] (startCommand i s)) := by
    induction n with
    | zero => exact hstart
    | succ n ih => rw [Function.iterate_succ_apply']; exact hmove _ ih
  obtain rfl := Host.Outcome.next.inj (h ▸ exec_eq_iterate_awaitedMove i s (Nat.le_refl 16))
  exact hiter 16

end Sys2Proof.Proofs

/-! The step by the event at the head of the schedule: the issue protocol (`10_state.md` R33), reset
(`70_reset_and_hazards.md` R170 to R172) and the moves of the transport and the settle timer. -/

namespace Sys2Proof.Proofs

open Sys2Proof.Machine Sys2Proof.Safety Sys2Proof.Laws

/-! ### The host's moves -/

/-- R5: the agent at the head of the schedule moves. -/
theorem step_of_schedule {s : State} {e : Event} {rest : List Event} (hrun : s.seq = .idle → s.fault = none)
    (hs : s.schedule = e :: rest) : step s = takeEvent e { s with schedule := rest } := by
  rw [step_eq_agentStep hrun, agentStep_of_schedule hs]

/-- R33: a called word that decodes to a command runs it as one step. -/
theorem takeEvent_call_ok {s : State} {w : Word} {i : Instr} (hbusy : busyBit s.status = false) (hw : decode w = .ok i) :
    takeEvent (.call w) s = exec i (acceptCommand i s) := by
  rw [takeEvent, hostCall, State.isBusy, if_neg (ne_true_of_eq_false hbusy), runWord, hw]

/-- R33: an issued word that decodes to a command starts it. -/
theorem takeEvent_issue_ok {s : State} {w : Word} {i : Instr} (hbusy : busyBit s.status = false)
    (hw : decode w = .ok i) : takeEvent (.issue w) s = .next (startCommand i (acceptCommand i s)) := by
  rw [takeEvent, hostIssue, State.isBusy, if_neg (ne_true_of_eq_false hbusy), startWord, hw]

/-- R143: a word issued while BUSY, whether the host waits or not. -/
theorem takeEvent_word_while_busy {s : State} {w : Word} {ev : Event} (hbusy : busyBit s.status = true)
    (hev : ev = .call w ∨ ev = .issue w) : takeEvent ev s = .next (recordIssueWhileBusy s) := by
  obtain rfl | rfl := hev
  · rw [takeEvent, hostCall, State.isBusy, if_pos hbusy]
  · rw [takeEvent, hostIssue, State.isBusy, if_pos hbusy]

/-- Settles O7: the accepted state is the one of the statement. -/
theorem stepRunsTheDecodedCommand : Obligations.StepRunsTheDecodedCommand := by
  intro s w i rest _ hbusy hfault hsched hw
  rw [step_of_schedule (fun _ => hfault) hsched, takeEvent_call_ok (s := { s with schedule := rest }) hbusy hw]
  rfl

/-- R33: a state that may accept a word is changed by nothing. -/
theorem readyForWord_of_ready {s : State} (hseq : s.seq = .idle) (hbusy : busyBit s.status = false)
    (hfault : s.fault = none) : readyForWord s = s := by
  have hstatus : s.status &&& 0x7F = s.status := by
    refine BitVec.eq_of_getLsbD_eq fun j hj => ?_
    have hbit7 : s.status[7] = false := hbusy
    interval_cases j <;> simp [hbit7]
  rw [readyForWord, hstatus, ← hseq, ← hfault]

/-- R32, R70: the word of a command, placed as a number. -/
theorem withFetchWord_encode {s : State} (i : Instr) (hseq : s.seq = .idle) (hbusy : busyBit s.status = false)
    (hfault : s.fault = none) :
    s.withFetchWord 16 (encode i).toNat = { s with schedule := .call (encode i) :: s.schedule } := by
  have hword : BitVec.ofNat 16 ((encode i).toNat % 2 ^ min 16 16) = encode i := by
    rw [Nat.min_self, Nat.mod_eq_of_lt (encode i).isLt, BitVec.ofNat_toNat, BitVec.setWidth_eq]
  rw [State.withFetchWord, hword, readyForWord_of_ready hseq hbusy hfault, presentWord]

/-- Settles O8: the placed word is called next (`stepRunsTheDecodedCommand`). -/
theorem placedWordIsRunNext : Obligations.PlacedWordIsRunNext := by
  intro s i hseq hbusy hfault
  rw [withFetchWord_encode i hseq hbusy hfault]
  exact ⟨stepRunsTheDecodedCommand _ _ _ _ hseq hbusy hfault rfl (decode_encode i), rfl, rfl⟩

/-- Settles O10: the started command is in flight with no values read (`request_readings` at transaction 0). -/
theorem issuedCommandIsInFlight : Obligations.IssuedCommandIsInFlight := by
  intro s w i rest _ hbusy hfault hsched hw
  refine ⟨_, ?_, rfl, request_readings i s.drawAt 0⟩
  rw [step_of_schedule (fun _ => hfault) hsched, takeEvent_issue_ok (s := { s with schedule := rest }) hbusy hw,
    startCommand_eq]
  rfl

/-- Settles O11: a command in flight lets the run go on, and the host's word is recorded only. -/
theorem issueWhileBusyIsRecorded : Obligations.IssueWhileBusyIsRecorded := by
  intro s w rest ev hseq hbusy hev hsched
  rw [step_of_schedule (fun h => absurd h hseq) hsched,
    takeEvent_word_while_busy (s := { s with schedule := rest }) hbusy hev, recordIssueWhileBusy]

/-- Settles O13: with no move scheduled an idle block has no next event. -/
theorem idleBlockWaitsForTheHost : Obligations.IdleBlockWaitsForTheHost := by
  intro s hseq hfault hsched
  have hnone : nextEvent s = none := by simp only [nextEvent, hsched, hseq]
  rw [step_eq_agentStep fun _ => hfault, agentStep, hnone]

/-! ### Reset and the register map -/

/-- Settles O14. -/
theorem resetValues : Obligations.ResetValues := ⟨rfl, rfl, rfl, rfl, rfl, rfl, rfl⟩

/-- Settles O15: `abandonInFlight_cases` says what is marked. -/
theorem resetAbandonsTheCommand : Obligations.ResetAbandonsTheCommand := by
  intro s rest hrun hsched
  have hport : busReqPort { s with schedule := rest } = busReqPort s := rfl
  rw [step_of_schedule hrun hsched, takeEvent, blockReset]
  obtain ⟨hnone, habandon⟩ | ⟨req, hreq, habandon⟩ := abandonInFlight_cases { s with schedule := rest }
  · rw [habandon, ← hport, hnone, List.append_nil]
    rfl
  · rw [habandon, ← hport, hreq]
    rfl

/-- Settles O19. -/
theorem registerMapOffsets : Obligations.RegisterMapOffsets := by
  unfold Obligations.RegisterMapOffsets
  and_intros <;> rfl

/-! ### The moves of the transport and the settle timer -/

/-- R53: the value a transaction adds, with the pair of a 2-byte read as the statements write it. -/
theorem readValue_eq (req : BusReq) (b0 b1 : Byte) : readValue req b0 b1 = match req with
    | .write _ => []
    | .read n => [if n = 1 then b0.setWidth 16 else BitVec.ofNat 16 (pairValue b0 b1)] := by
  have hpair : littleEndian b0 b1 = BitVec.ofNat 16 (pairValue b0 b1) := by
    rw [← littleEndian_toNat_eq_pairValue, BitVec.ofNat_toNat, BitVec.setWidth_eq]
  cases req with
  | write bytes => rfl
  | read n => rw [readValue, hpair]

/-- Settles O40: the sequencer advances to a transaction it still has. -/
theorem answeredTransactionAdvances : Obligations.AnsweredTransactionAdvances := by
  intro s cmd k vals req b0 b1 rest hseq hport hsched hd hk
  have hreq : request cmd vals k = some req := by rw [← hport, busReqPort, hseq]
  rw [step_of_schedule (by simp [hseq]) hsched, takeEvent,
    transportAnswers_of_ok (s := { s with schedule := rest }) hseq hreq hd, advance, if_pos hk, readValue_eq,
    answeredBy_eq_busEvent, ← hd]
  rfl

/-- Settles O41: the failed transaction is in the trace and the command completes with TFAIL. -/
theorem failedTransactionInFlightCompletes : Obligations.FailedTransactionInFlightCompletes := by
  intro s cmd k vals req rest hseq hport hsched hd
  have hreq : request cmd vals k = some req := by rw [← hport, busReqPort, hseq]
  rw [step_of_schedule (by simp [hseq]) hsched, takeEvent,
    transportAnswers_of_fail (s := { s with schedule := rest }) hseq hreq hd, answeredBy_eq_busEvent, ← hd]
  rfl

/-- Settles O42: in the wait the transport has nothing to do, and the timer's signal completes the command. -/
theorem settleWaitEndsWithTheTimer : Obligations.SettleWaitEndsWithTheTimer := by
  intro s cmd rest hseq
  refine ⟨fun hsched => ?transport, fun hsched => ?timer, by rw [settleReqPort, hseq], by rw [busReqPort, hseq]⟩
  case transport =>
    rw [step_of_schedule (by simp [hseq]) hsched, takeEvent, transportAnswers, hseq]
  case timer =>
    rw [step_of_schedule (by simp [hseq]) hsched, takeEvent, settleTimerDone, hseq, complete_ok_eq]
    rfl

end Sys2Proof.Proofs

/-! What holds of every step. One move of an agent is one of the cases of `Moved`; a property kept by the moves of the
host, the transport, the settle timer and the reset is kept by every step, a command run as one step included
(`step_keeps`). -/

namespace Sys2Proof.Proofs

open Sys2Proof.Machine Sys2Proof.Safety Sys2Proof.Laws

/-! ### One move -/

/-- R5: what the move of an event does to a state. -/
inductive Moved (s : State) : Event → State → Prop
  /-- R143: a word while BUSY. -/
  | recorded {w : Word} {e : Event} (hword : e = .call w ∨ e = .issue w) : Moved s e (recordIssueWhileBusy s)
  /-- R33: a called word that is a command. -/
  | called {w : Word} {i : Instr} {t : State} (hw : decode w = .ok i) (hexec : exec i (acceptCommand i s) = .next t) :
      Moved s (.call w) t
  /-- R33: an issued word that is a command. -/
  | issued {w : Word} {i : Instr} (hw : decode w = .ok i) : Moved s (.issue w) (startCommand i (acceptCommand i s))
  /-- R142: a word that is no command. -/
  | illegal {w : Word} {e : Event} (hword : e = .call w ∨ e = .issue w) : Moved s e (completeIllegal (accept s))
  /-- R50: the transport's move. -/
  | transport : Moved s .transport (transportAnswers s)
  /-- R150: the settle timer's move. -/
  | settleDone : Moved s .settleDone (settleTimerDone s)
  /-- R170: the reset. -/
  | reset : Moved s .rst (blockReset s)

/-- R5: every move is one of these. -/
theorem moved_of_takeEvent {e : Event} {s t : State} (h : takeEvent e s = .next t) : Moved s e t := by
  cases e with
  | call w =>
    rw [takeEvent, hostCall] at h
    split at h
    · exact Host.Outcome.next.inj h ▸ .recorded (.inl rfl)
    · obtain ⟨i, hw, hrun⟩ | ⟨_, _, hrun⟩ := runWord_cases w s <;> rw [hrun] at h
      · exact .called hw h
      · exact Host.Outcome.next.inj h ▸ .illegal (.inl rfl)
  | issue w =>
    rw [takeEvent, hostIssue] at h
    obtain rfl := Host.Outcome.next.inj h
    split
    · exact .recorded (.inr rfl)
    · rw [startWord]
      split
      next i hw => exact .issued hw
      next => exact .illegal (.inr rfl)
  | transport => exact Host.Outcome.next.inj h ▸ .transport
  | settleDone => exact Host.Outcome.next.inj h ▸ .settleDone
  | rst => exact Host.Outcome.next.inj h ▸ .reset

/-- R5: a step waits, or is the move of the next event. -/
theorem step_moved {s t : State} (h : step s = .next t) : t = s ∨ ∃ e, nextEvent s = some e ∧ Moved (popEvent s) e t := by
  obtain ⟨-, -, hwait⟩ | ⟨e, he, hmove⟩ := step_cases h
  · exact .inl hwait
  · exact .inr ⟨e, he, moved_of_takeEvent hmove⟩

/-- A property that the moves of the sequencer, the host's other moves and the reset keep is kept by every step; a command
run as one step is taken by `exec_induction`. -/
theorem step_keeps {P : State → Prop} {s t : State} (hs : P s) (h : step s = .next t)
    (hpop : ∀ u, P u → P (popEvent u)) (hrecord : ∀ u, P u → P (recordIssueWhileBusy u))
    (hstart : ∀ i u, P u → P (startCommand i (acceptCommand i u))) (hillegal : ∀ u, P u → P (completeIllegal (accept u)))
    (htransport : ∀ u, P u → P (transportAnswers u)) (hsettle : ∀ u, P u → P (settleTimerDone u))
    (hreset : ∀ u, P u → P (blockReset u)) : P t := by
  obtain rfl | ⟨e, -, hmove⟩ := step_moved h
  · exact hs
  · have hp := hpop s hs
    cases hmove with
    | recorded => exact hrecord _ hp
    | called hw hexec => exact exec_induction hexec (hstart _ _ hp) htransport hsettle
    | issued => exact hstart _ _ hp
    | illegal => exact hillegal _ hp
    | transport => exact htransport _ hp
    | settleDone => exact hsettle _ hp
    | reset => exact hreset _ hp

/-! ### The recorded fault, the schedule and the trace under one move -/

@[simp] theorem advance_fault (cmd : Instr) (k : Nat) (vals : List Word) (s : State) :
    (advance cmd k vals s).fault = s.fault := by
  obtain ⟨-, h⟩ | ⟨-, -, h⟩ | ⟨-, -, h⟩ := advance_cases cmd k vals s <;> simp [h]

@[simp] theorem advance_schedule (cmd : Instr) (k : Nat) (vals : List Word) (s : State) :
    (advance cmd k vals s).schedule = s.schedule := by
  obtain ⟨-, h⟩ | ⟨-, -, h⟩ | ⟨-, -, h⟩ := advance_cases cmd k vals s <;> simp [h]

theorem trace_isPrefix_advance (cmd : Instr) (k : Nat) (vals : List Word) (s : State) :
    s.trace <+: (advance cmd k vals s).trace := by
  obtain ⟨-, h⟩ | ⟨-, -, h⟩ | ⟨-, -, h⟩ := advance_cases cmd k vals s <;> simp [h]

@[simp] theorem transportAnswers_fault (s : State) : (transportAnswers s).fault = s.fault := by
  obtain h | ⟨_, _, _, _, -, -, ⟨-, h⟩ | ⟨_, _, -, h⟩⟩ := transportAnswers_cases s <;> simp [h]

@[simp] theorem transportAnswers_schedule (s : State) : (transportAnswers s).schedule = s.schedule := by
  obtain h | ⟨_, _, _, _, -, -, ⟨-, h⟩ | ⟨_, _, -, h⟩⟩ := transportAnswers_cases s <;> simp [h]

theorem trace_isPrefix_transportAnswers (s : State) : s.trace <+: (transportAnswers s).trace := by
  obtain h | ⟨_, _, _, _, -, -, ⟨-, h⟩ | ⟨_, _, -, h⟩⟩ := transportAnswers_cases s
  · rw [h]
  · simp [h]
  · rw [h]
    exact (List.prefix_append s.trace _).trans (trace_isPrefix_advance _ _ _ (transact _ s))

@[simp] theorem settleTimerDone_alsGain (s : State) : (settleTimerDone s).alsGain = s.alsGain := by
  obtain h | ⟨_, -, h⟩ := settleTimerDone_cases s <;> simp [h]

@[simp] theorem settleTimerDone_fault (s : State) : (settleTimerDone s).fault = s.fault := by
  obtain h | ⟨_, -, h⟩ := settleTimerDone_cases s <;> simp [h]

@[simp] theorem settleTimerDone_schedule (s : State) : (settleTimerDone s).schedule = s.schedule := by
  obtain h | ⟨_, -, h⟩ := settleTimerDone_cases s <;> simp [h]

theorem trace_isPrefix_settleTimerDone (s : State) : s.trace <+: (settleTimerDone s).trace := by
  obtain h | ⟨_, -, h⟩ := settleTimerDone_cases s <;> simp [h]

@[simp] theorem blockReset_fault (s : State) : (blockReset s).fault = s.fault := by
  obtain ⟨-, h⟩ | ⟨_, -, h⟩ := abandonInFlight_cases s <;> simp [blockReset, h]

theorem trace_isPrefix_blockReset (s : State) : s.trace <+: (blockReset s).trace := by
  obtain ⟨-, h⟩ | ⟨_, -, h⟩ := abandonInFlight_cases s <;> simp [blockReset, h]

/-- Settles O12: no move clears a recorded fault, and there is only one fault to record. -/
theorem recordedFaultIsKeptAndStopsTheRun : Obligations.RecordedFaultIsKeptAndStopsTheRun := by
  refine ⟨fun s t f h hs => ?kept, fun s f hseq hfault => ?stops⟩
  case kept =>
    cases f
    refine step_keeps (P := fun u => u.fault = some .issueWhileBusy) hs h (fun _ hu => hu) (fun _ _ => rfl)
      (fun i u hu => ?start) (fun _ hu => hu) (fun u hu => (transportAnswers_fault u).trans hu)
      (fun u hu => (settleTimerDone_fault u).trans hu) fun u hu => (blockReset_fault u).trans hu
    case start =>
      rw [startCommand_eq]
      exact hu
  case stops => rw [step, machineStep, hseq, hfault]

/-- Settles O50: no move rewrites the trace. -/
theorem traceOnlyGrows : Obligations.TraceOnlyGrows := by
  intro s t h
  refine step_keeps (P := fun u => s.trace <+: u.trace) (List.prefix_refl _) h (fun u hu => hu) (fun u hu => hu)
    (fun i u hu => ?start) (fun u hu => hu) (fun u hu => hu.trans (trace_isPrefix_transportAnswers u))
    (fun u hu => hu.trans (trace_isPrefix_settleTimerDone u)) fun u hu => hu.trans (trace_isPrefix_blockReset u)
  case start =>
    rw [startCommand_eq]
    exact hu.trans (List.prefix_append _ _)

/-! ### The two granularities -/

/-- R180: with an empty schedule and no recorded fault, a step is the move of the agent the block waits for. -/
theorem step_eq_awaitedMove {s : State} (hsched : s.schedule = []) (hfault : s.fault = none) :
    step s = .next (awaitedMove s) := by
  have hpop : popEvent s = s := by rw [popEvent, hsched, List.tail_nil, ← hsched]
  rw [step_eq_agentStep fun _ => hfault, agentStep, nextEvent, hsched, hpop, awaitedMove]
  cases s.seq <;> rfl

/-- R180: the agents that are waited for leave the schedule and the recorded fault. -/
theorem awaitedMove_schedule_fault (s : State) :
    (awaitedMove s).schedule = s.schedule ∧ (awaitedMove s).fault = s.fault := by
  unfold awaitedMove
  split <;> simp

/-- R180: steps with an empty schedule are the moves of the agents that are waited for. -/
theorem runSteps_eq_iterate_awaitedMove {s : State} (hsched : s.schedule = []) (hfault : s.fault = none) (n : Nat) :
    runSteps n s = .next (awaitedMove^[n] s) := by
  induction n generalizing s with
  | zero => rfl
  | succ n ih =>
    obtain ⟨hsched', hfault'⟩ := awaitedMove_schedule_fault s
    simp only [runSteps, step_eq_awaitedMove hsched hfault, Function.iterate_succ_apply]
    exact ih (hsched'.trans hsched) (hfault'.trans hfault)

/-- R172: an idle block with nothing scheduled stays as it is. -/
theorem runSteps_of_idle {s : State} (hseq : s.seq = .idle) (hsched : s.schedule = []) (hfault : s.fault = none)
    (n : Nat) : runSteps n s = .next s := by
  rw [runSteps_eq_iterate_awaitedMove hsched hfault, iterate_awaitedMove_of_idle hseq]

/-- Settles O43: the step of the issue starts the command, whose agents then take it to the end of the called command
(`exec_eq_iterate_awaitedMove`); an illegal word ends both in the step of the host's move. -/
theorem atomicStepEqualsTransactionSteps : Obligations.AtomicStepEqualsTransactionSteps := by
  intro s w n hseq hbusy hfault hn
  obtain ⟨m, rfl⟩ := Nat.exists_eq_add_of_le' hn
  have hstep (e : Event) : step { s with schedule := [e] } = takeEvent e { s with schedule := [] } :=
    step_of_schedule (fun _ => hfault) rfl
  rw [runSteps, hstep, hstep]
  cases hw : decode w with
  | ok i =>
    rw [takeEvent_issue_ok (s := { s with schedule := [] }) hbusy hw,
      takeEvent_call_ok (s := { s with schedule := [] }) hbusy hw,
      exec_eq_iterate_awaitedMove i _ (Nat.le_add_left 16 m)]
    rw [startCommand_eq]
    exact runSteps_eq_iterate_awaitedMove (s := { acceptCommand i { s with schedule := [] } with seq := .busy i 0 [] })
      rfl hfault (m + 16)
  | error e =>
    rw [takeEvent_illegal (s := { s with schedule := [] }) hseq hbusy (.inl rfl) hw,
      takeEvent_illegal (s := { s with schedule := [] }) hseq hbusy (.inr rfl) hw]
    exact runSteps_of_idle (s := { s with schedule := [], status := 0x02 }) hseq rfl hfault (m + 16)

/-! ### Who changes ALS_GAIN over whole steps -/

/-- R21: the transport's move changes ALS_GAIN only as it completes the last transaction of an AGAIN. -/
theorem again_of_transportAnswers_alsGain_ne {s : State} (h : (transportAnswers s).alsGain ≠ s.alsGain) :
    ∃ sel k vals, s.seq = .busy (.again sel) k vals ∧ 2 ≤ k := by
  obtain hsame | ⟨cmd, k, vals, req, hseq, -, ⟨-, hfail⟩ | ⟨b0, b1, -, hok⟩⟩ := transportAnswers_cases s
  · exact absurd (congrArg State.alsGain hsame) h
  · exact absurd (congrArg State.alsGain hfail) h
  · rw [hok] at h
    obtain ⟨-, hnext⟩ | ⟨-, -, hnext⟩ | ⟨hk, -, hnext⟩ :=
      advance_cases cmd (k + 1) (vals ++ readValue req b0 b1) (transact req s) <;> rw [hnext] at h
    · exact absurd rfl h
    · exact absurd rfl h
    · obtain hsame | ⟨sel, rfl, -⟩ := commit_alsGain_cases cmd (vals ++ readValue req b0 b1) (transact req s)
      · exact absurd hsame h
      · exact ⟨sel, k, vals, hseq, Nat.le_of_succ_le_succ hk⟩

/-- Settles O49: of the moves, a called command changes ALS_GAIN as its owner (`onlyTheOwnersWriteARegister`), the
transport at the end of an AGAIN, and a reset may. -/
theorem alsGainChangesOnlyByAgainOrReset : Obligations.AlsGainChangesOnlyByAgainOrReset := by
  intro s t h hne
  obtain rfl | ⟨e, he, hmove⟩ := step_moved h
  · exact absurd rfl hne
  rw [he]
  cases hmove with
  | reset => exact .inl rfl
  | called hw hexec =>
    obtain ⟨hals, -⟩ := onlyTheOwnersWriteARegister _ _ _ hexec
    obtain ⟨-, sel, rfl⟩ := hals hne
    exact .inr (.inl ⟨_, sel, rfl, hw⟩)
  | transport =>
    obtain ⟨sel, k, vals, hseq, hk⟩ := again_of_transportAnswers_alsGain_ne (s := popEvent s) hne
    exact .inr (.inr ⟨sel, k, vals, hseq, hk, rfl⟩)
  | issued =>
    rw [startCommand_eq] at hne
    exact absurd rfl hne
  | settleDone => exact absurd (settleTimerDone_alsGain (popEvent s)) hne
  | recorded | illegal => exact absurd rfl hne

end Sys2Proof.Proofs

/-! The arithmetic of `43_conversion.md` section 3: the ranges of the pipeline (R118), and its computation on signed 32-bit
words. No intermediate leaves the range of a signed word, so each wrap-around operation has the value of the operation on
integers (`toInt_sub_eq`, `toInt_mul_eq`, `toInt_sdiv_eq`). -/

namespace Sys2Proof.Proofs

open Sys2Proof.Machine Sys2Proof.Safety Sys2Proof.Laws

/-! ### Ranges -/

/-- R23: no legal ALS gain is 0. -/
theorem ne_zero_of_legalAlsGain {g : Byte} (h : LegalAlsGain g) : g ≠ 0 := by
  obtain rfl | rfl | rfl | rfl := h <;> decide

/-- R23: no legal proximity gain is 0. -/
theorem ne_zero_of_legalProxGain {g : Byte} (h : LegalProxGain g) : g ≠ 0 := by
  obtain rfl | rfl | rfl | rfl := h <;> decide

theorem iac1_range (ch0 ch1 : Word) : -122026 ≤ iac1 ch0 ch1 ∧ iac1 ch0 ch1 ≤ 65535 := by
  have h0 := ch0.isLt
  have h1 := ch1.isLt
  simp only [iac1, Config.calB]
  omega

theorem iac2Dividend_range (ch0 ch1 : Word) :
    -84605685 ≤ iac2Dividend ch0 ch1 ∧ iac2Dividend ch0 ch1 ≤ 48889110 := by
  have h0 := ch0.isLt
  have h1 := ch1.isLt
  simp only [iac2Dividend, Config.calC, Config.calD]
  omega

theorem iac2_range (ch0 ch1 : Word) : -84605 ≤ iac2 ch0 ch1 ∧ iac2 ch0 ch1 ≤ 48889 := by
  obtain ⟨hlow, hhigh⟩ := iac2Dividend_range ch0 ch1
  exact ⟨Int.tdiv_le_tdiv (a := -84605685) (by decide) hlow, Int.tdiv_le_tdiv (b := 48889110) (by decide) hhigh⟩

theorem iac_le (ch0 ch1 : Word) : iac ch0 ch1 ≤ 65535 := by
  obtain ⟨-, hle⟩ := infraredAdjustedCountIsClamped ch0 ch1
  exact hle.trans (Nat.le_of_lt_succ ch0.isLt)

theorem alsit_range (atime : Byte) : 2 ≤ alsit atime ∧ alsit atime ≤ 696 := by
  have h := atime.isLt
  rw [alsit]
  omega

theorem lpc_range (atime : Byte) : 36 ≤ lpc atime ∧ lpc atime ≤ 12740 := by
  obtain ⟨hlow, hhigh⟩ := alsit_range atime
  have hpos : 0 < alsit atime := by omega
  constructor
  · exact (Nat.le_div_iff_mul_le hpos).mpr ((Nat.mul_le_mul_left 36 hhigh).trans (by decide))
  · exact Nat.div_le_of_le_mul ((show Config.calGA * Config.calDF ≤ 2 * 12740 by decide).trans
      (Nat.mul_le_mul_right 12740 hlow))

theorem iac_mul_lpc_le (ch0 ch1 : Word) (atime : Byte) : iac ch0 ch1 * lpc atime ≤ 834915900 := by
  obtain ⟨-, hlpc⟩ := lpc_range atime
  exact Nat.mul_le_mul (iac_le ch0 ch1) hlpc

/-- R115, R118: the last division only makes the value smaller. -/
theorem lux_le (ch0 ch1 : Word) (atime : Byte) {g : Byte} (hg : g ≠ 0) : lux ch0 ch1 atime g ≤ 834915900 := by
  rw [lux, gainDiv_of_ne hg]
  exact (Nat.div_le_self _ _).trans (iac_mul_lpc_le ch0 ch1 atime)

/-- R116: RESULT of RDALS as a number. -/
theorem alsResult_toNat (ch0 ch1 : Word) (atime : Byte) {g : Byte} (hg : g ≠ 0) :
    (alsResult ch0 ch1 atime g).toNat = lux ch0 ch1 atime g := by
  have := lux_le ch0 ch1 atime hg
  rw [alsResult, BitVec.toNat_ofNat, Nat.mod_eq_of_lt (by omega)]

/-- R117: RESULT of RDPROX as a number. -/
theorem proxResult_toNat (p : Word) {g : Byte} (hg : g ≠ 0) : (proxResult p g).toNat = p.toNat / g.toNat := by
  have hp := p.isLt
  have hle := Nat.div_le_self p.toNat g.toNat
  rw [proxResult, gainDiv_of_ne hg, BitVec.toNat_ofNat, Nat.mod_eq_of_lt (by omega)]

/-- R118: the largest RESULT of RDPROX. -/
theorem proxResult_le (p : Word) {g : Byte} (hg : g ≠ 0) : (proxResult p g).toNat ≤ 65535 := by
  rw [proxResult_toNat p hg]
  exact (Nat.div_le_self _ _).trans (Nat.le_of_lt_succ p.isLt)

/-- Settles O36: the range of each intermediate, and its bounds at the inputs of the rule. -/
theorem conversionRanges : Obligations.ConversionRanges := by
  refine ⟨fun ch0 ch1 atime => ?ranges, by decide⟩
  case ranges =>
    have hch1 := ch1.isLt
    exact ⟨by omega, iac1_range ch0 ch1, iac2Dividend_range ch0 ch1, iac2_range ch0 ch1, iac_le ch0 ch1,
      alsit_range atime, lpc_range atime, iac_mul_lpc_le ch0 ch1 atime,
      fun g hg => lux_le ch0 ch1 atime (ne_zero_of_legalAlsGain hg),
      fun g hg => proxResult_le ch0 (ne_zero_of_legalProxGain hg)⟩

/-! ### Signed 32-bit words -/

/-- R118: an integer that a signed 32-bit word holds. -/
def FitsWord (n : Int) : Prop := -2147483648 ≤ n ∧ n ≤ 2147483647

/-- D26: wrap-around keeps what fits. -/
theorem bmod_of_fits {n : Int} (h : FitsWord n) : n.bmod (2 ^ 32) = n := by
  obtain ⟨hlow, hhigh⟩ := h
  exact Int.bmod_eq_of_le_mul_two (by omega) (by omega)

section
variable {x y : Word32} {m n : Int} (hx : x.toInt = m) (hy : y.toInt = n)
include hx hy

theorem toInt_sub_eq (h : FitsWord (m - n)) : (x - y).toInt = m - n := by
  rw [BitVec.toInt_sub, hx, hy, bmod_of_fits h]

theorem toInt_mul_eq (h : FitsWord (m * n)) : (x * y).toInt = m * n := by
  rw [BitVec.toInt_mul, hx, hy, bmod_of_fits h]

/-- D26: signed division by a positive word is truncated division. -/
theorem toInt_sdiv_eq (hpos : 0 < n) : (x.sdiv y).toInt = m.tdiv n := by
  have hne : y ≠ -1 := fun h => by
    rw [h] at hy
    exact absurd (hy ▸ hpos) (by decide)
  rw [BitVec.toInt_sdiv_of_ne_or_ne x y (.inr hne), hx, hy]

/-- D26: the larger signed word is the larger integer. -/
theorem toInt_max32_eq : (max32 x y).toInt = max m n := by
  rw [max32, ← hx, ← hy]
  split
  next h => rw [max_eq_right (BitVec.slt_iff_toInt_lt.mp h).le]
  next h => rw [max_eq_left (not_lt.mp fun hlt => h (BitVec.slt_iff_toInt_lt.mpr hlt))]

end

/-- R8: a zero-extended byte or 16-bit value is itself as a signed word. -/
theorem toInt_setWidth_of_le {n : Nat} (hn : n ≤ 16) (x : BitVec n) : (x.setWidth 32).toInt = x.toNat := by
  have hlt : x.toNat < 2 ^ 16 := x.isLt.trans_le (Nat.pow_le_pow_right (by decide) hn)
  rw [BitVec.toInt_setWidth, bmod_of_fits ⟨by omega, by omega⟩]

theorem toInt_byte (b : Byte) : (b.setWidth 32).toInt = b.toNat := toInt_setWidth_of_le (by decide) b

theorem toInt_word (v : Word) : (v.setWidth 32).toInt = v.toNat := toInt_setWidth_of_le (by decide) v

/-- R118: a value below the sign bit is itself as a signed word. -/
theorem toInt_ofNat_of_lt {n : Nat} (h : n < 2147483648) : (BitVec.ofNat 32 n).toInt = n := by
  rw [BitVec.toInt_ofNat', bmod_of_fits ⟨by omega, by omega⟩]

/-! ### The pipeline on words -/

/-- R110 on words. -/
theorem toInt_alsit32 (atime : Byte) : (alsit32 atime).toInt = alsit atime := by
  have h := atime.isLt
  have hcount : (256 - atime.setWidth 32 : Word32).toInt = 256 - atime.toNat :=
    toInt_sub_eq rfl (toInt_byte atime) ⟨by omega, by omega⟩
  have hdividend : (87 * (256 - atime.setWidth 32) : Word32).toInt = 87 * (256 - atime.toNat) :=
    toInt_mul_eq rfl hcount ⟨by omega, by omega⟩
  rw [alsit32, toInt_sdiv_eq hdividend rfl (by decide), alsit_cast, Int.tdiv_eq_ediv_of_nonneg (by omega)]
  rfl

/-- R111 on words. -/
theorem toInt_iac1Word32 (ch0 ch1 : Word) : (iac1Word32 ch0 ch1).toInt = iac1 ch0 ch1 := by
  have h1 := ch1.isLt
  obtain ⟨hlow, hhigh⟩ := iac1_range ch0 ch1
  have hdividend : (BitVec.ofNat 32 Config.calB * ch1.setWidth 32).toInt = (Config.calB * ch1.toNat : Nat) := by
    rw [Nat.cast_mul]
    exact toInt_mul_eq (toInt_ofNat_of_lt (by decide)) (toInt_word ch1)
      ⟨by simp only [Config.calB]; omega, by simp only [Config.calB]; omega⟩
  have hquotient : ((BitVec.ofNat 32 Config.calB * ch1.setWidth 32).sdiv 1000).toInt =
      (Config.calB * ch1.toNat / 1000 : Nat) :=
    toInt_sdiv_eq hdividend rfl (by decide)
  exact toInt_sub_eq (toInt_word ch0) hquotient ⟨by rw [iac1] at hlow; omega, by rw [iac1] at hhigh; omega⟩

/-- R112 on words. -/
theorem toInt_iac2Word32 (ch0 ch1 : Word) : (iac2Word32 ch0 ch1).toInt = iac2 ch0 ch1 := by
  have h0 := ch0.isLt
  have h1 := ch1.isLt
  obtain ⟨hlow, hhigh⟩ := iac2Dividend_range ch0 ch1
  have hc : (BitVec.ofNat 32 Config.calC * ch0.setWidth 32).toInt = Config.calC * ch0.toNat :=
    toInt_mul_eq (toInt_ofNat_of_lt (by decide)) (toInt_word ch0)
      ⟨by simp only [Config.calC]; omega, by simp only [Config.calC]; omega⟩
  have hd : (BitVec.ofNat 32 Config.calD * ch1.setWidth 32).toInt = Config.calD * ch1.toNat :=
    toInt_mul_eq (toInt_ofNat_of_lt (by decide)) (toInt_word ch1)
      ⟨by simp only [Config.calD]; omega, by simp only [Config.calD]; omega⟩
  have hdividend := toInt_sub_eq hc hd ⟨by rw [iac2Dividend] at hlow; omega, by rw [iac2Dividend] at hhigh; omega⟩
  exact toInt_sdiv_eq hdividend rfl (by decide)

/-- R113 on words. -/
theorem toInt_iac32 (ch0 ch1 : Word) : (iac32 ch0 ch1).toInt = iac ch0 ch1 := by
  rw [iac_cast]
  exact toInt_max32_eq (toInt_max32_eq (toInt_iac1Word32 ch0 ch1) (toInt_iac2Word32 ch0 ch1)) rfl

/-- R114 on words. -/
theorem toInt_lpc32 (atime : Byte) : (lpc32 atime).toInt = lpc atime := by
  obtain ⟨hlow, -⟩ := alsit_range atime
  exact toInt_sdiv_eq (m := (Config.calGA * Config.calDF : Nat)) (by decide) (toInt_alsit32 atime) (by omega)

/-- R115 on words. -/
theorem toInt_lux32 (ch0 ch1 : Word) (atime : Byte) {g : Byte} (hg : g ≠ 0) :
    (lux32 ch0 ch1 atime g).toInt = lux ch0 ch1 atime g := by
  have hle := iac_mul_lpc_le ch0 ch1 atime
  have hpos : 0 < g.toNat := Nat.pos_of_ne_zero fun h => hg (BitVec.eq_of_toNat_eq h)
  have hproduct : (iac32 ch0 ch1 * lpc32 atime).toInt = (iac ch0 ch1 * lpc atime : Nat) := by
    rw [Nat.cast_mul]
    exact toInt_mul_eq (toInt_iac32 ch0 ch1) (toInt_lpc32 atime) (by rw [← Nat.cast_mul]; exact ⟨by omega, by omega⟩)
  rw [lux, gainDiv_of_ne hg]
  exact toInt_sdiv_eq hproduct (toInt_byte g) (by omega)

/-- R117 on words. -/
theorem toInt_prox32 (p : Word) {g : Byte} (hg : g ≠ 0) : (prox32 p g).toInt = (p.toNat / g.toNat : Nat) := by
  have hpos : 0 < g.toNat := Nat.pos_of_ne_zero fun h => hg (BitVec.eq_of_toNat_eq h)
  exact toInt_sdiv_eq (toInt_word p) (toInt_byte g) (by omega)

/-- Settles O39: both results fit a signed word, and the words of both pipelines have the same value. -/
theorem signedWordDatapathIsExact : Obligations.SignedWordDatapathIsExact := by
  refine ⟨fun ch0 ch1 atime g hg => ?als, fun p g hg => ?prox⟩
  case als =>
    have hne := ne_zero_of_legalAlsGain hg
    have hle := lux_le ch0 ch1 atime hne
    refine BitVec.eq_of_toInt_eq ?_
    rw [toInt_lux32 ch0 ch1 atime hne, alsResult, toInt_ofNat_of_lt (by omega)]
  case prox =>
    have hne := ne_zero_of_legalProxGain hg
    have hlt := (Nat.div_le_self p.toNat g.toNat).trans_lt p.isLt
    refine BitVec.eq_of_toInt_eq ?_
    rw [toInt_prox32 p hne, proxResult, gainDiv_of_ne hne, toInt_ofNat_of_lt (by omega)]

end Sys2Proof.Proofs

/-! The two invariants: of the block's state (`10_state.md` R23 to R27) and of the bus (`20_memory.md` R40, R41, R50, R54,
R56). Both hold the legal sequencer position, which an advance keeps (`seqLegal_advance`); each is kept by every move of
`step_keeps`. -/

namespace Sys2Proof.Proofs

open Sys2Proof.Machine Sys2Proof.Safety Sys2Proof.Laws

/-! ### The shape of a command's transactions -/

/-- R27: whether a transaction is a read, a select or a write does not depend on the values read. -/
theorem isRead_request (cmd : Instr) (vals : List Word) (k : Nat) :
    isRead (request cmd vals k) = isRead (request cmd [] k) := by
  cases cmd with
  | rdals | rdprox => rfl
  | pon | poff | aen | pen | wen => simp only [request]; unfold enableRequest; split <;> rfl
  | again | pgain => simp only [request]; unfold controlRequest; split <;> rfl
  | init => simp only [request]; unfold initRequest; split <;> rfl

/-- R27: one more transaction is one more read, if it is one. -/
theorem readsBefore_succ (cmd : Instr) (k : Nat) :
    readsBefore cmd (k + 1) = readsBefore cmd k + if isRead (request cmd [] k) then 1 else 0 := by
  simp [readsBefore, List.range_succ, List.countP_append]

/-- R27: a read adds one value, a write none. -/
theorem length_readValue (req : BusReq) (b0 b1 : Byte) :
    (readValue req b0 b1).length = if isRead (some req) then 1 else 0 := by
  cases req <;> rfl

/-- R91, R134: INIT and PON alone settle. -/
theorem init_or_pon_of_settles {cmd : Instr} (h : settles cmd = true) : cmd = .init ∨ cmd = .pon := by
  cases cmd with
  | init => exact .inl rfl
  | pon => exact .inr rfl
  | poff | aen | pen | wen | again | pgain | rdals | rdprox => cases h

/-! ### The sequencer position -/

/-- R27: a sequencer position that holds a value for each read before it stays legal as it advances. -/
theorem seqLegal_advance {cmd : Instr} {k : Nat} {vals : List Word} (hlen : vals.length = readsBefore cmd k) (s : State) :
    SeqLegal (advance cmd k vals s) := by
  obtain ⟨hk, h⟩ | ⟨-, hsettles, h⟩ | ⟨-, -, h⟩ := advance_cases cmd k vals s <;> rw [h]
  · exact ⟨hk, hlen⟩
  · exact init_or_pon_of_settles hsettles
  · trivial

theorem seqLegal_startCommand (i : Instr) (s : State) : SeqLegal (startCommand i s) := seqLegal_advance rfl s

/-- R27: an answered transaction adds its value to those held. -/
theorem length_readings_advance {cmd : Instr} {k : Nat} {vals : List Word} {req : BusReq} (b0 b1 : Byte)
    (hlen : vals.length = readsBefore cmd k) (hreq : request cmd vals k = some req) :
    (vals ++ readValue req b0 b1).length = readsBefore cmd (k + 1) := by
  rw [List.length_append, hlen, length_readValue, readsBefore_succ, ← isRead_request cmd vals, hreq]

theorem seqLegal_of_busy {s : State} {cmd : Instr} {k : Nat} {vals : List Word} (h : SeqLegal s)
    (hseq : s.seq = .busy cmd k vals) : k < txnCount cmd ∧ vals.length = readsBefore cmd k := by
  rwa [SeqLegal, hseq] at h

theorem seqLegal_transportAnswers {s : State} (h : SeqLegal s) : SeqLegal (transportAnswers s) := by
  obtain hsame | ⟨cmd, k, vals, req, hseq, hreq, ⟨-, hfail⟩ | ⟨b0, b1, -, hok⟩⟩ := transportAnswers_cases s
  · rwa [hsame]
  · rw [hfail]; trivial
  · obtain ⟨-, hlen⟩ := seqLegal_of_busy h hseq
    rw [hok]
    exact seqLegal_advance (length_readings_advance b0 b1 hlen hreq) _

theorem seqLegal_settleTimerDone {s : State} (h : SeqLegal s) : SeqLegal (settleTimerDone s) := by
  obtain hsame | ⟨_, -, hdone⟩ := settleTimerDone_cases s
  · rwa [hsame]
  · rw [hdone]; trivial

/-! ### The invariant of the block's state -/

/-- R23: the multipliers a gain command records are legal. -/
theorem legalAlsGain_alsSelect (sel : Byte) : LegalAlsGain (alsSelect sel).2 := by
  rw [alsSelect_eq, LegalAlsGain]
  split_ifs <;> decide

theorem legalProxGain_proxSelect (sel : Byte) : LegalProxGain (proxSelect sel).2 := by
  rw [proxSelect_eq, LegalProxGain]
  split_ifs <;> decide

/-- R23, R26: what the invariant says of the registers other than STATUS and SEQ. -/
structure RegistersLegal (s : State) : Prop where
  alsGain : LegalAlsGain s.alsGain
  proxGain : LegalProxGain s.proxGain
  result : s.result.toNat ≤ maxResult

/-- R23, R25, R26, R27: the invariant, with its three register bounds together. -/
theorem inv_iff (s : State) : Inv s ↔ RegistersLegal s ∧ StatusAgrees s ∧ SeqLegal s :=
  ⟨fun h => ⟨⟨h.alsGain, h.proxGain, h.result⟩, h.status, h.seq⟩,
    fun ⟨hregs, hstatus, hseq⟩ => ⟨hregs.alsGain, hregs.proxGain, hstatus, hregs.result, hseq⟩⟩

/-- R21, R22, R26: what a command writes at its end is legal. -/
theorem registersLegal_commit {s : State} (h : RegistersLegal s) (cmd : Instr) (vals : List Word) :
    RegistersLegal (commit cmd vals s) := by
  constructor
  · obtain hsame | ⟨sel, -, hset⟩ := commit_alsGain_cases cmd vals s
    · rw [hsame]; exact h.alsGain
    · rw [hset]; exact legalAlsGain_alsSelect sel
  · obtain hsame | ⟨sel, -, hset⟩ := commit_proxGain_cases cmd vals s
    · rw [hsame]; exact h.proxGain
    · rw [hset]; exact legalProxGain_proxSelect sel
  · obtain hset | ⟨-, hset⟩ | ⟨-, hset⟩ := commit_result_cases cmd vals s <;> rw [hset]
    · exact h.result
    · have hne := ne_zero_of_legalAlsGain h.alsGain
      rw [alsResult_toNat _ _ _ hne]
      exact lux_le _ _ _ hne
    · exact (proxResult_le _ (ne_zero_of_legalProxGain h.proxGain)).trans (by decide)

/-- R25: a command in flight stays so as it advances, or completes with OK. -/
theorem inv_advance {s : State} {cmd : Instr} {k : Nat} {vals : List Word} (hregs : RegistersLegal s)
    (hstatus : s.status = 0x80) (hlen : vals.length = readsBefore cmd k) : Inv (advance cmd k vals s) := by
  rw [inv_iff]
  refine ⟨?registers, ?status, seqLegal_advance hlen s⟩
  case registers =>
    obtain ⟨-, h⟩ | ⟨-, -, h⟩ | ⟨-, -, h⟩ := advance_cases cmd k vals s <;> rw [h]
    · exact ⟨hregs.alsGain, hregs.proxGain, hregs.result⟩
    · exact ⟨hregs.alsGain, hregs.proxGain, hregs.result⟩
    · obtain ⟨hals, hprox, hresult⟩ := registersLegal_commit hregs cmd vals
      exact ⟨hals, hprox, hresult⟩
  case status =>
    obtain ⟨-, h⟩ | ⟨-, -, h⟩ | ⟨-, -, h⟩ := advance_cases cmd k vals s <;> rw [h]
    · exact hstatus
    · exact hstatus
    · exact .inl rfl

/-- R25: STATUS of a command in flight. -/
theorem status_of_busy {s : State} {cmd : Instr} {k : Nat} {vals : List Word} (h : StatusAgrees s)
    (hseq : s.seq = .busy cmd k vals) : s.status = 0x80 := by
  rwa [StatusAgrees, hseq] at h

theorem inv_transportAnswers {s : State} (h : Inv s) : Inv (transportAnswers s) := by
  obtain ⟨hregs, hstatus, hlegal⟩ := (inv_iff s).mp h
  obtain ⟨hals, hprox, hresult⟩ := hregs
  obtain hsame | ⟨cmd, k, vals, req, hseq, hreq, ⟨-, hfail⟩ | ⟨b0, b1, -, hok⟩⟩ := transportAnswers_cases s
  · rwa [hsame]
  · rw [hfail]
    exact ⟨hals, hprox, .inr (.inl rfl), hresult, trivial⟩
  · obtain ⟨-, hlen⟩ := seqLegal_of_busy hlegal hseq
    rw [hok]
    exact inv_advance ⟨hals, hprox, hresult⟩ (status_of_busy hstatus hseq) (length_readings_advance b0 b1 hlen hreq)

theorem inv_settleTimerDone {s : State} (h : Inv s) : Inv (settleTimerDone s) := by
  obtain hsame | ⟨_, -, hdone⟩ := settleTimerDone_cases s
  · rwa [hsame]
  · rw [hdone]
    exact ⟨h.alsGain, h.proxGain, .inl rfl, h.result, trivial⟩

/-- R170: the values of a reset are legal, whatever was in flight. -/
theorem inv_blockReset (s : State) : Inv (blockReset s) :=
  ⟨.inl rfl, .inr (.inr (.inr rfl)), .inl rfl, Nat.zero_le _, trivial⟩

/-- Settles O44: the reset values are legal. -/
theorem resetMeetsTheInvariant : Obligations.ResetMeetsTheInvariant :=
  ⟨.inl rfl, .inr (.inr (.inr rfl)), .inl rfl, Nat.zero_le _, trivial⟩

/-- Settles O45: each move keeps the invariant (`step_keeps`). -/
theorem stepKeepsTheInvariant : Obligations.StepKeepsTheInvariant := by
  intro s t hs h
  refine step_keeps hs h ?pop ?record ?start ?illegal (fun u hu => inv_transportAnswers hu)
    (fun u hu => inv_settleTimerDone hu) fun u _ => inv_blockReset u
  case pop | record => exact fun u hu => ⟨hu.alsGain, hu.proxGain, hu.status, hu.result, hu.seq⟩
  case start => exact fun i u hu => inv_advance ⟨hu.alsGain, hu.proxGain, hu.result⟩ rfl rfl
  case illegal => exact fun u hu => ⟨hu.alsGain, hu.proxGain, .inr (.inr rfl), hu.result, trivial⟩

/-! ### The requests of the bus -/

/-- R52, R53, R54: this register may be selected for a read of `n` bytes. -/
def ReadableAt (n : Nat) (r : SensorReg) : Prop := (n = 1 ∧ ByteReadable r) ∨ (n = 2 ∧ PairStart r)

/-- R41, R50, R54: transaction `k` of a command is a select, a write, or a read right after its select. -/
inductive RequestShape (cmd : Instr) (k : Nat) : BusReq → Prop
  | select {n : Nat} {r : SensorReg} (h : ReadableAt n r) : RequestShape cmd k (selectReq r)
  | write {r : SensorReg} {v : Byte} (h : Writable r) : RequestShape cmd k (writeReq r v)
  | read {j n : Nat} {r : SensorReg} (hk : k = j + 1) (hsel : ∀ vals, request cmd vals j = some (selectReq r))
      (h : ReadableAt n r) : RequestShape cmd k (.read n)

/-- R90, R100, R101: a command that reads a register and writes it back. -/
theorem requestShape_update {cmd : Instr} {r : SensorReg} {f : List Word → Byte} (hread : ByteReadable r)
    (hwrite : Writable r) (hcount : txnCount cmd = 3) (h0 : ∀ vals, request cmd vals 0 = some (selectReq r))
    (h1 : ∀ vals, request cmd vals 1 = some (.read 1)) (h2 : ∀ vals, request cmd vals 2 = some (writeReq r (f vals)))
    {vals : List Word} {k : Nat} {req : BusReq} (h : request cmd vals k = some req) : RequestShape cmd k req := by
  have hk : k < txnCount cmd := (request_isSome cmd vals k).mp (Option.isSome_of_eq_some h)
  rw [hcount] at hk
  match k with
  | 0 => exact Option.some.inj ((h0 vals).symm.trans h) ▸ .select (.inl ⟨rfl, hread⟩)
  | 1 => exact Option.some.inj ((h1 vals).symm.trans h) ▸ .read rfl h0 (.inl ⟨rfl, hread⟩)
  | 2 => exact Option.some.inj ((h2 vals).symm.trans h) ▸ .write hwrite

/-- R116: the shape of RDALS. -/
theorem requestShape_rdals {vals : List Word} {k : Nat} {req : BusReq} (h : request .rdals vals k = some req) :
    RequestShape .rdals k req := by
  have hk : k < 6 := (request_isSome .rdals vals k).mp (Option.isSome_of_eq_some h)
  match k with
  | 0 => exact Option.some.inj h ▸ .select (.inr ⟨rfl, .inl rfl⟩)
  | 1 => exact Option.some.inj h ▸ .read rfl (fun _ => rfl) (.inr ⟨rfl, .inl rfl⟩)
  | 2 => exact Option.some.inj h ▸ .select (.inr ⟨rfl, .inr (.inl rfl)⟩)
  | 3 => exact Option.some.inj h ▸ .read rfl (fun _ => rfl) (.inr ⟨rfl, .inr (.inl rfl)⟩)
  | 4 => exact Option.some.inj h ▸ .select (.inl ⟨rfl, .inr (.inr rfl)⟩)
  | 5 => exact Option.some.inj h ▸ .read rfl (fun _ => rfl) (.inl ⟨rfl, .inr (.inr rfl)⟩)

/-- R117: the shape of RDPROX. -/
theorem requestShape_rdprox {vals : List Word} {k : Nat} {req : BusReq} (h : request .rdprox vals k = some req) :
    RequestShape .rdprox k req := by
  have hk : k < 2 := (request_isSome .rdprox vals k).mp (Option.isSome_of_eq_some h)
  match k with
  | 0 => exact Option.some.inj h ▸ .select (.inr ⟨rfl, .inr (.inr rfl)⟩)
  | 1 => exact Option.some.inj h ▸ .read rfl (fun _ => rfl) (.inr ⟨rfl, .inr (.inr rfl)⟩)

/-- R131: the shape of INIT. -/
theorem requestShape_init {vals : List Word} {k : Nat} {req : BusReq} (h : request .init vals k = some req) :
    RequestShape .init k req := by
  have hk : k < 15 := (request_isSome .init vals k).mp (Option.isSome_of_eq_some h)
  match k with
  | 0 | 1 | 2 | 3 | 4 | 5 | 6 | 7 | 8 | 11 | 14 => exact Option.some.inj h ▸ .write (by simp [Writable])
  | 9 | 12 => exact Option.some.inj h ▸ .select (.inl ⟨rfl, .inl rfl⟩)
  | 10 | 13 => exact Option.some.inj h ▸ .read rfl (fun _ => rfl) (.inl ⟨rfl, .inl rfl⟩)

/-- R27: every transaction of every command. -/
theorem requestShape {cmd : Instr} {vals : List Word} {k : Nat} {req : BusReq} (h : request cmd vals k = some req) :
    RequestShape cmd k req := by
  have henable : ByteReadable .enable ∧ Writable .enable := ⟨.inl rfl, .inl rfl⟩
  have hcontrol : ByteReadable .control ∧ Writable .control := ⟨.inr (.inl rfl), by simp [Writable]⟩
  cases cmd with
  | pon | poff | aen en | pen en | wen en =>
    exact requestShape_update henable.1 henable.2 rfl (fun _ => rfl) (fun _ => rfl) (fun _ => rfl) h
  | again sel | pgain sel =>
    exact requestShape_update hcontrol.1 hcontrol.2 rfl (fun _ => rfl) (fun _ => rfl) (fun _ => rfl) h
  | rdals => exact requestShape_rdals h
  | rdprox => exact requestShape_rdprox h
  | init => exact requestShape_init h

/-- R41, R50, R54: every transaction of a command is a request of the block. -/
theorem legalRequest_of_request {cmd : Instr} {vals : List Word} {k : Nat} {req : BusReq}
    (h : request cmd vals k = some req) : LegalRequest req := by
  cases requestShape h with
  | select hr =>
    obtain ⟨-, hbyte⟩ | ⟨-, hpair⟩ := hr
    · exact .inl ⟨_, rfl, .inl hbyte⟩
    · exact .inl ⟨_, rfl, .inr hpair⟩
  | write hr => exact .inr (.inl ⟨_, _, rfl, hr⟩)
  | read _ _ hr =>
    obtain ⟨rfl, -⟩ | ⟨rfl, -⟩ := hr
    · exact .inr (.inr (.inl rfl))
    · exact .inr (.inr (.inr rfl))

/-! ### The discipline of the trace -/

/-- R154: one more entry keeps the discipline, if it is legal and a read stands after its select. -/
theorem traceDisciplined_snoc {t : List TraceEvent} {e : TraceEvent} (ht : TraceDisciplined t) (he : EventLegal e)
    (hread : ∀ n, readCount e = some n → ∃ earlier sel, t = earlier ++ [sel] ∧ SelectFor n sel) :
    TraceDisciplined (t ++ [e]) := by
  obtain ⟨hlegal, hselected⟩ := ht
  refine ⟨?legal, fun before e' rest n hsplit hcount => ?selected⟩
  case legal =>
    intro e' he'
    obtain hmem | hlast := List.mem_append.mp he'
    · exact hlegal e' hmem
    · rwa [List.mem_singleton.mp hlast]
  case selected =>
    obtain rfl | ⟨rest', last, rfl⟩ := List.eq_nil_or_concat' rest
    · obtain ⟨rfl, hlast⟩ := List.append_inj' hsplit rfl
      obtain rfl := List.singleton_inj.mp hlast
      exact hread n hcount
    · rw [← List.cons_append, ← List.append_assoc] at hsplit
      obtain ⟨hinit, -⟩ := List.append_inj' hsplit rfl
      exact hselected before e' rest' n hinit hcount

/-- R154: an entry that is no read needs no select. -/
theorem traceDisciplined_snoc_of_not_read {t : List TraceEvent} {e : TraceEvent} (ht : TraceDisciplined t)
    (he : EventLegal e) (hread : readCount e = none) : TraceDisciplined (t ++ [e]) :=
  traceDisciplined_snoc ht he fun n hn => by rw [hread] at hn; cases hn

/-- R50: the entry of a legal request is legal, whatever the answer. -/
theorem eventLegal_busEvent {req : BusReq} (hreq : LegalRequest req) (d : Draw) : EventLegal (busEvent req d) := by
  refine ⟨rfl, hreq, ?response⟩
  case response =>
    cases d with
    | fail => exact .inl rfl
    | ok b0 b1 =>
      obtain ⟨r, rfl, -⟩ | ⟨r, v, rfl, -⟩ | rfl | rfl := hreq
      · exact .inr ⟨[], rfl, .inl ⟨_, rfl, rfl⟩⟩
      · exact .inr ⟨[], rfl, .inl ⟨_, rfl, rfl⟩⟩
      · exact .inr ⟨[b0], rfl, .inr ⟨1, rfl, rfl⟩⟩
      · exact .inr ⟨[b0, b1], rfl, .inr ⟨2, rfl, rfl⟩⟩

/-- R154: the entry of a request is a read exactly if the request is. -/
theorem eq_read_of_readCount {req : BusReq} {n : Nat} {e : TraceEvent}
    (he : (∃ d, e = busEvent req d) ∨ e = .abandoned Config.devAddr req) (h : readCount e = some n) : req = .read n := by
  cases req with
  | read m => obtain ⟨d, rfl⟩ | rfl := he <;> exact congrArg BusReq.read (Option.some.inj h)
  | write bytes => obtain ⟨d, rfl⟩ | rfl := he <;> cases h

/-! ### The invariant of the bus -/

/-- R54: with nothing on `bus_req` no read is pending. -/
theorem busInv_of_no_request {s : State} (htrace : TraceDisciplined s.trace) (hport : busReqPort s = none)
    (hseq : SeqLegal s) : BusInv s :=
  ⟨htrace, fun n hn => absurd (hport.symm.trans hn) (by simp), hseq⟩

/-- R27: what is on `bus_req` of a legal sequencer position is a legal request. -/
theorem legalRequest_of_busReqPort {s : State} {req : BusReq} (h : busReqPort s = some req) : LegalRequest req := by
  unfold busReqPort at h
  split at h
  · exact legalRequest_of_request h
  · cases h
  · cases h

/-- R154: the entry that the request on `bus_req` leaves, answered or abandoned, keeps the discipline. -/
theorem traceDisciplined_snoc_of_busReqPort {s : State} {req : BusReq} {e : TraceEvent} (h : BusInv s)
    (hport : busReqPort s = some req) (he : (∃ d, e = busEvent req d) ∨ e = .abandoned Config.devAddr req) :
    TraceDisciplined (s.trace ++ [e]) := by
  have hlegal := legalRequest_of_busReqPort hport
  refine traceDisciplined_snoc h.trace ?legal fun n hn => h.pending n ?pending
  case legal =>
    obtain ⟨d, rfl⟩ | rfl := he
    · exact eventLegal_busEvent hlegal d
    · exact ⟨rfl, hlegal⟩
  case pending => rw [hport, eq_read_of_readCount he hn]

/-- R52, R53, R54: a read that comes next has its completed select as the last entry. -/
theorem selected_of_next_read {cmd : Instr} {vals vals' : List Word} {k n : Nat} {req : BusReq} {b0 b1 : Byte}
    (hreq : request cmd vals k = some req) (hnext : request cmd vals' (k + 1) = some (.read n)) :
    SelectFor n (busEvent req (.ok b0 b1)) := by
  cases requestShape hnext with
  | read hk hsel hr =>
    obtain rfl := Nat.succ.inj hk
    obtain rfl := Option.some.inj (hreq.symm.trans (hsel vals))
    exact ⟨_, rfl, hr⟩

theorem busInv_transportAnswers {s : State} (h : BusInv s) : BusInv (transportAnswers s) := by
  have hlegal := seqLegal_transportAnswers h.seq
  obtain hsame | ⟨cmd, k, vals, req, hseq, hreq, hcase⟩ := transportAnswers_cases s
  · rwa [hsame]
  have hport : busReqPort s = some req := by rwa [busReqPort, hseq]
  have htrace : TraceDisciplined (s.trace ++ [busEvent req (s.drawAt 0)]) :=
    traceDisciplined_snoc_of_busReqPort h hport (.inl ⟨_, rfl⟩)
  obtain ⟨-, hfail⟩ | ⟨b0, b1, hd, hok⟩ := hcase
  · rw [hfail] at hlegal ⊢
    exact busInv_of_no_request htrace rfl hlegal
  · rw [hok] at hlegal ⊢
    obtain ⟨-, hnext⟩ | ⟨-, -, hnext⟩ | ⟨-, -, hnext⟩ :=
      advance_cases cmd (k + 1) (vals ++ readValue req b0 b1) (transact req s) <;> rw [hnext] at hlegal ⊢
    · refine ⟨htrace, fun n hn => ⟨s.trace, _, rfl, ?select⟩, hlegal⟩
      case select => exact hd ▸ selected_of_next_read hreq hn
    · exact busInv_of_no_request (traceDisciplined_snoc_of_not_read htrace trivial rfl) rfl hlegal
    · exact busInv_of_no_request (by rwa [complete_trace, commit_trace]) rfl hlegal

theorem busInv_settleTimerDone {s : State} (h : BusInv s) : BusInv (settleTimerDone s) := by
  have hlegal := seqLegal_settleTimerDone h.seq
  obtain hsame | ⟨_, -, hdone⟩ := settleTimerDone_cases s
  · rwa [hsame]
  · rw [hdone] at hlegal ⊢
    exact busInv_of_no_request (traceDisciplined_snoc_of_not_read h.trace trivial rfl) rfl hlegal

/-- R171: the abandoned transaction had its select too, if it is a read. -/
theorem busInv_blockReset {s : State} (h : BusInv s) : BusInv (blockReset s) := by
  obtain ⟨-, habandon⟩ | ⟨req, hport, habandon⟩ := abandonInFlight_cases s <;> rw [blockReset, habandon]
  · exact busInv_of_no_request h.trace rfl trivial
  · exact busInv_of_no_request (traceDisciplined_snoc_of_busReqPort h hport (.inr rfl)) rfl trivial

/-- R27: a command starts with a select or a write. -/
theorem busInv_startCommand {s : State} (h : BusInv s) (i : Instr) : BusInv (startCommand i (acceptCommand i s)) := by
  have hlegal := seqLegal_startCommand i (acceptCommand i s)
  rw [startCommand_eq] at hlegal ⊢
  refine ⟨traceDisciplined_snoc_of_not_read h.trace trivial rfl, fun n hn => ?first, hlegal⟩
  case first =>
    have hread : request i [] 0 = some (.read n) := hn
    cases requestShape hread with
    | read hk => cases hk

/-- Settles O46: at reset nothing has been on the bus. -/
theorem resetMeetsTheBusDiscipline : Obligations.ResetMeetsTheBusDiscipline := by
  refine busInv_of_no_request ⟨fun e he => ?_, fun before e rest n hsplit _ => ?_⟩ rfl trivial
  · cases he
  · exact absurd hsplit.symm (List.append_ne_nil_of_right_ne_nil _ (List.cons_ne_nil _ _))

/-- Settles O47: each move keeps the bus invariant (`step_keeps`). -/
theorem stepKeepsTheBusDiscipline : Obligations.StepKeepsTheBusDiscipline := by
  intro s t hs h
  refine step_keeps hs h ?pop ?record (fun i u hu => busInv_startCommand hu i) ?illegal
    (fun u hu => busInv_transportAnswers hu) (fun u hu => busInv_settleTimerDone hu) fun u hu => busInv_blockReset hu
  case pop | record => exact fun u hu => ⟨hu.trace, hu.pending, hu.seq⟩
  case illegal => exact fun u hu => busInv_of_no_request hu.trace rfl trivial

end Sys2Proof.Proofs

/-! What stands in the sensor after a command (`60_exceptions.md` R144, `44_initialize.md` R130, R132). The answered
transactions of a transcript make their writes one after another (`foldl_see_transcript`), the last write to an offset
stands there (`read_wroteAll`), and a failed transaction puts its own write in doubt, in an INIT its later writes too
(`read_lost`). -/

namespace Sys2Proof.Proofs

open Sys2Proof.Machine Sys2Proof.Safety Sys2Proof.Laws

/-! ### Writes one after another -/

/-- R142: the register writes of a list complete one after another. -/
def wroteAll (v : SensorView) (l : List (Nat × Byte)) : SensorView := l.foldl (fun v w => v.wrote w.1 w.2) v

/-- The byte of the last write of a list to an offset. -/
def lastWrite (l : List (Nat × Byte)) (a : Nat) : Option Byte := (l.reverse.find? fun w => w.1 == a).map Prod.snd

theorem wroteAll_append (v : SensorView) (l l' : List (Nat × Byte)) : wroteAll v (l ++ l') = wroteAll (wroteAll v l) l' :=
  List.foldl_append

theorem wroteAll_concat (v : SensorView) (l : List (Nat × Byte)) (w : Nat × Byte) :
    wroteAll v (l ++ [w]) = (wroteAll v l).wrote w.1 w.2 := wroteAll_append v l [w]

theorem lastWrite_concat (l : List (Nat × Byte)) (w : Nat × Byte) (a : Nat) :
    lastWrite (l ++ [w]) a = if w.1 = a then some w.2 else lastWrite l a := by
  by_cases h : w.1 = a <;> simp [lastWrite, h]

/-- An offset has a last write exactly if it is written. -/
theorem lastWrite_eq_none_iff (l : List (Nat × Byte)) (a : Nat) : lastWrite l a = none ↔ a ∉ l.map Prod.fst := by
  rw [lastWrite, Option.map_eq_none_iff, List.find?_eq_none]
  simp only [List.mem_reverse, beq_iff_eq, List.mem_map, not_exists, not_and]

/-- R144: the last write to an offset stands there. -/
theorem read_wroteAll (v : SensorView) (l : List (Nat × Byte)) (a : Nat) :
    Memory.read (wroteAll v l).cells a = (lastWrite l a).or (Memory.read v.cells a) := by
  induction l using List.reverseRecOn with
  | nil => rfl
  | append_singleton l w ih =>
    rw [wroteAll_concat, SensorView.wrote, read_write, lastWrite_concat, ih]
    split <;> simp

theorem mem_written_wroteAll (v : SensorView) (l : List (Nat × Byte)) (a : Nat) :
    a ∈ (wroteAll v l).written ↔ a ∈ l.map Prod.fst ∨ a ∈ v.written := by
  induction l using List.reverseRecOn with
  | nil => simp [wroteAll]
  | append_singleton l w ih =>
    simp only [wroteAll_concat, SensorView.wrote, List.mem_cons, ih, List.map_append, List.mem_append, List.map_cons,
      List.map_nil]
    tauto

theorem inInit_wroteAll (v : SensorView) (l : List (Nat × Byte)) : (wroteAll v l).inInit = v.inInit := by
  induction l using List.reverseRecOn with
  | nil => rfl
  | append_singleton l w ih => rw [wroteAll_concat, SensorView.wrote, ih]

/-! ### The transactions of a transcript -/

/-- R144: an answered transaction makes its write, if it is one. -/
theorem see_busEvent_ok (v : SensorView) (req : BusReq) (b0 b1 : Byte) :
    v.see (busEvent req (.ok b0 b1)) = wroteAll v ([req].filterMap writeTarget) := by
  have hok : ∃ bytes, respond req (.ok b0 b1) = .ok bytes := by cases req <;> exact ⟨_, rfl⟩
  obtain ⟨bytes, hbytes⟩ := hok
  rw [busEvent, hbytes, SensorView.see, List.filterMap_cons, List.filterMap_nil]
  cases writeTarget req <;> rfl

/-- R144: the answered transactions make their writes. -/
theorem foldl_see_transcript {reqs : List BusReq} {d : Nat → Draw} {k : Nat} (hk : k ≤ reqs.length)
    (h : ∀ j, j < k → Answered (d j)) (v : SensorView) :
    ((transcript reqs d).take k).foldl SensorView.see v = wroteAll v ((reqs.take k).filterMap writeTarget) := by
  induction k with
  | zero => rfl
  | succ k ih =>
    have hreq : reqs[k]? = some reqs[k] := List.getElem?_eq_getElem hk
    have hprevious := ih (by omega) fun j hj => h j (by omega)
    cases hd : d k with
    | fail => exact absurd hd (h k (Nat.lt_succ_self k))
    | ok b0 b1 =>
      rw [take_transcript_succ hreq, List.foldl_append, hprevious, hd, List.foldl_cons, List.foldl_nil, see_busEvent_ok,
        List.take_add_one, hreq, Option.toList_some, List.filterMap_append, wroteAll_append]

/-- R144, R132: what a failed transaction puts in doubt. -/
theorem read_lost (v : SensorView) (req : BusReq) (a : Nat) : Memory.read (v.lost req).cells a =
    if (writeTarget req).map Prod.fst = some a ∨ a ∈ v.initUnspecified then none else Memory.read v.cells a := by
  rw [SensorView.lost, read_forgetAll]
  cases writeTarget req <;> simp [eq_comm]

/-- R132, U1: the offsets that only later steps of INIT would have written. -/
theorem mem_initUnspecified (v : SensorView) (a : Nat) : a ∈ v.initUnspecified ↔
    v.inInit = true ∧ a ∈ [0x00, 0x01, 0x02, 0x03, 0x0C, 0x0D, 0x0E, 0x0F] ∧ a ∉ v.written := by
  have hoffsets : a ∈ initWrites.map (fun w => w.1.offset.toNat) ↔
      a ∈ [0x00, 0x01, 0x02, 0x03, 0x0C, 0x0D, 0x0E, 0x0F] := by
    simp [initWrites, SensorReg.offset]
    tauto
  rw [SensorView.initUnspecified]
  split <;> simp_all

/-! ### After a whole command -/

/-- R150: the settle wait changes nothing that stands. -/
theorem foldl_see_settleEvents (i : Instr) (v : SensorView) : (settleEvents i).foldl SensorView.see v = v := by
  rw [settleEvents]
  split <;> rfl

/-- R144: after a completed command, the last write to each offset stands. -/
theorem read_standingWrites_okRun {i : Instr} {s : State} (h : AllAnswered s (txnCount i)) (a : Nat) :
    Memory.read (standingWrites (okRun i s).trace) a =
      (lastWrite ((plannedRequests i s.drawAt).filterMap writeTarget) a).or (Memory.read (standingWrites s.trace) a) := by
  have hlen := length_plannedRequests i s.drawAt
  have htranscript : (commandTranscript i s.drawAt).take (txnCount i) = commandTranscript i s.drawAt :=
    List.take_of_length_le (by simp [commandTranscript, transcript, hlen])
  have hwrites := foldl_see_transcript hlen.ge h (sensorView s.trace)
  rw [List.take_of_length_le hlen.le] at hwrites
  rw [standingWrites, okRun_trace, sensorView_append, List.foldl_append, foldl_see_settleEvents, ← htranscript,
    commandTranscript, hwrites, read_wroteAll, standingWrites]

/-- R144, R132: after a command accepted on `s` that fails at transaction `k`, that transaction's own write is unknown, in
an INIT the writes of later steps too, and otherwise the last write before it stands. -/
theorem read_standingWrites_failedRun {i : Instr} {s : State} {k : Nat} {req : BusReq}
    (hreq : (plannedRequests i s.drawAt)[k]? = some req) (h : FirstFailure s k) (a : Nat) :
    Memory.read (standingWrites (failedRun i (acceptCommand i s) k).trace) a =
      if (writeTarget req).map Prod.fst = some a then none
      else (lastWrite (((plannedRequests i s.drawAt).take k).filterMap writeTarget) a).or
        (if i = .init ∧ a ∈ [0x00, 0x01, 0x02, 0x03, 0x0C, 0x0D, 0x0E, 0x0F] then none
          else Memory.read (standingWrites s.trace) a) := by
  obtain ⟨hbefore, hfail⟩ := h
  have hk : k ≤ (plannedRequests i s.drawAt).length := (List.getElem?_eq_some_iff.mp hreq).1.le
  have htrace : (failedRun i (acceptCommand i s) k).trace = s.trace ++ ([.started i] ++
      ((transcript (plannedRequests i s.drawAt) s.drawAt).take k ++ [busEvent req (s.drawAt k)])) := by
    rw [← take_transcript_succ hreq, ← List.append_assoc]
    rfl
  have hview : sensorView (failedRun i (acceptCommand i s) k).trace =
      (wroteAll ((sensorView s.trace).see (.started i))
        (((plannedRequests i s.drawAt).take k).filterMap writeTarget)).lost req := by
    rw [htrace, sensorView_append, List.foldl_append, List.foldl_append, foldl_see_transcript hk hbefore, hfail]
    rfl
  rw [standingWrites, hview, read_lost]
  simp only [mem_initUnspecified, inInit_wroteAll, mem_written_wroteAll, read_wroteAll, ← lastWrite_eq_none_iff,
    SensorView.see, List.not_mem_nil, or_false, decide_eq_true_eq, standingWrites]
  by_cases hown : (writeTarget req).map Prod.fst = some a
  · simp only [hown, true_or, if_true]
  · cases lastWrite (((plannedRequests i s.drawAt).take k).filterMap writeTarget) a with
    | none => simp only [hown, false_or, and_true, if_false, Option.none_or]
    | some b => simp only [hown, false_or, reduceCtorEq, and_false, if_false, Option.some_or]

/-! ### INIT -/

/-- R131: the register writes of INIT that reads `e1` and `e2` of ENABLE. -/
theorem initWrites_of_plannedRequests (d : Nat → Draw) : (plannedRequests .init d).filterMap writeTarget =
    [(0x01, 0xF8), (0x00, 0x00), (0x01, 0xFF), (0x02, 0xFF), (0x03, 0xFF), (0x0C, 0x22), (0x0D, 0x00), (0x0E, 0x08),
      (0x0F, 0x2C), (0x00, byteOf (d 10) ||| 0x02), (0x00, byteOf (d 13) ||| 0x01)] := rfl

/-- Settles O53: the last write to each register of `initWrites_of_plannedRequests` stands. -/
theorem initWritesStand : Obligations.InitWritesStand := by
  intro s t e2 x2 h13 hexec hok m
  obtain ⟨hall, rfl⟩ := answered_of_status_ok hexec hok
  have hread (a : Nat) := read_standingWrites_okRun hall a
  simp only [initWrites_of_plannedRequests, h13] at hread
  refine ⟨hread _, hread _, hread _, hread _, hread _, hread _, hread _, hread _, fun a ha => ?others⟩
  case others =>
    have hnone : lastWrite ((plannedRequests .init s.drawAt).filterMap writeTarget) a = none := by
      rw [lastWrite_eq_none_iff, initWrites_of_plannedRequests]
      simp only [List.map_cons, List.map_nil, List.mem_cons, List.not_mem_nil, or_false] at ha ⊢
      tauto
    exact (read_standingWrites_okRun hall a).trans (by rw [hnone, Option.none_or])

/-- Settles O35: INIT writes neither gain, and its CONTROL write stands. -/
theorem initLeavesTheGainStale : Obligations.InitLeavesTheGainStale := by
  intro s t u hagain hokt hinit hoku
  obtain ⟨-, rfl⟩ := answered_of_status_ok hagain hokt
  obtain ⟨hall, rfl⟩ := answered_of_status_ok hinit hoku
  obtain ⟨e2, x2, h13⟩ := drawAt_ok_of_allAnswered hall (show 13 < 15 by omega)
  obtain ⟨-, -, -, -, -, -, -, hcontrol, -⟩ := initWritesStand _ _ e2 x2 h13 hinit hoku
  exact ⟨rfl, rfl, hcontrol⟩

section
variable {s t : State} {w : Word} {i : Instr} {rest : List Event} {k : Nat} (hseq : s.seq = .idle)
  (hbusy : busyBit s.status = false) (hfault : s.fault = none) (hsched : s.schedule = .call w :: rest)
  (hw : decode w = .ok i) (h : FirstFailure s k) (hstep : step s = .next t)
include hseq hbusy hfault hsched hw h hstep

/-- R33, R132, R144: `read_standingWrites_failedRun` for the step of a called command. -/
theorem read_standingWrites_of_failed_step {req : BusReq} (hreq : (plannedRequests i s.drawAt)[k]? = some req) (a : Nat) :
    Memory.read (standingWrites t.trace) a = if (writeTarget req).map Prod.fst = some a then none
      else (lastWrite (((plannedRequests i s.drawAt).take k).filterMap writeTarget) a).or
        (if i = .init ∧ a ∈ [0x00, 0x01, 0x02, 0x03, 0x0C, 0x0D, 0x0E, 0x0F] then none
          else Memory.read (standingWrites s.trace) a) := by
  have hk : k < txnCount i := by
    rw [← length_plannedRequests i s.drawAt]
    exact (List.getElem?_eq_some_iff.mp hreq).1
  have hexec := exec_failed (s := acceptCommand i { s with schedule := rest }) hk h
  rw [stepRunsTheDecodedCommand s w i rest hseq hbusy hfault hsched hw] at hstep
  obtain rfl := Host.Outcome.next.inj (hstep.symm.trans hexec)
  exact read_standingWrites_failedRun (s := { s with schedule := rest }) hreq h a

end

/-- Settles O54: transaction `k` of INIT's list puts its own write in doubt, and no earlier step has written what only a
later step would have. -/
theorem failedInitLeavesEarlierWrites : Obligations.FailedInitLeavesEarlierWrites := by
  intro s t rest k hseq hbusy hfault hsched hk hfirst hstep plan own earlier a
  obtain ⟨req, hreq⟩ : ∃ req, plan[k]? = some req :=
    ⟨_, List.getElem?_eq_getElem (by rwa [length_plannedRequests])⟩
  have hown : own = (writeTarget req).map Prod.fst := by simp only [own, hreq, Option.bind_some]
  have hlast : lastWrite earlier a = (earlier.reverse.find? fun w => w.1 == a).map Prod.snd := rfl
  rw [read_standingWrites_of_failed_step hseq hbusy hfault hsched (decode_of_encode_eq rfl) hfirst hstep hreq, hown]
  change (if _ then none else (lastWrite earlier a).or _) = _
  cases hfind : earlier.reverse.find? fun w => w.1 == a with
  | none => simp only [hlast, hfind, Option.map_none, Option.none_or, true_and]
  | some w => simp only [hlast, hfind, Option.map_some, Option.some_or]

/-! ### The control and gain commands -/

/-- R51: a register write names its register by the low five bits of its first byte. -/
theorem writeTarget_writeReq (r : SensorReg) (v : Byte) : writeTarget (writeReq r v) = some (r.offset.toNat, v) := by
  cases r <;> rfl

/-- R144: the offset that the statement gives a control or gain command, by the low byte of its word. -/
def updatedOffset (i : Instr) : Nat :=
  if encode i &&& 0x00FF = 0x0007 ∨ encode i &&& 0x00FF = 0x0008 then 0x0F else 0x00

/-- R90, R100, R101: a control or gain command is the update of one register, the one of the statement. -/
theorem exists_registerUpdate {i : Instr} (hinit : i ≠ .init) (hals : i ≠ .rdals) (hprox : i ≠ .rdprox) :
    ∃ (r : SensorReg) (f : Byte → Byte), (∀ d, plannedRequests i d = registerUpdateRequests r f d) ∧
      r.offset.toNat = updatedOffset i := by
  have control {i : Instr} {mask : Byte} {set : Bool} (hi : ControlCommand i mask set)
      (hword : ¬ (encode i &&& 0x00FF = 0x0007 ∨ encode i &&& 0x00FF = 0x0008)) :
      ∃ (r : SensorReg) (f : Byte → Byte), (∀ d, plannedRequests i d = registerUpdateRequests r f d) ∧
        r.offset.toNat = updatedOffset i :=
    ⟨.enable, enableUpdate mask set, hi.plannedRequests_eq, (if_neg hword).symm⟩
  cases i with
  | init => exact absurd rfl hinit
  | rdals => exact absurd rfl hals
  | rdprox => exact absurd rfl hprox
  | pon => exact control .pon (by decide)
  | poff => exact control .poff (by decide)
  | aen en => exact control (.aen en) (by cases en <;> decide)
  | pen en => exact control (.pen en) (by cases en <;> decide)
  | wen en => exact control (.wen en) (by cases en <;> decide)
  | again sel =>
    obtain ⟨hword, -⟩ := TableRow.again sel
    exact ⟨.control, _, plannedRequests_again sel, (if_pos (.inl hword)).symm⟩
  | pgain sel =>
    obtain ⟨hword, -⟩ := TableRow.pgain sel
    exact ⟨.control, _, plannedRequests_pgain sel, (if_pos (.inr hword)).symm⟩

/-- Settles O55: of its three transactions the last alone writes, and it is the one in doubt if it fails. -/
theorem failedUpdateLeavesOneRegisterUnknown : Obligations.FailedUpdateLeavesOneRegisterUnknown := by
  intro s t w i rest k a hseq hbusy hfault hsched hw hinit hals hprox hk hfirst hstep own
  obtain ⟨r, f, hplan, hoffset⟩ := exists_registerUpdate hinit hals hprox
  have hown : r.offset.toNat = own := hoffset
  have hread {req : BusReq} (hreq : (registerUpdateRequests r f s.drawAt)[k]? = some req)
      (hearlier : ((registerUpdateRequests r f s.drawAt).take k).filterMap writeTarget = []) :
      Memory.read (standingWrites t.trace) a =
        if (writeTarget req).map Prod.fst = some a then none else Memory.read (standingWrites s.trace) a := by
    rw [← hplan] at hreq hearlier
    rw [read_standingWrites_of_failed_step hseq hbusy hfault hsched hw hfirst hstep hreq, hearlier]
    simp [lastWrite, hinit]
  match k with
  | 0 => simpa [selectReq, writeTarget] using hread rfl rfl
  | 1 => simpa [writeTarget] using hread rfl rfl
  | 2 => simpa [writeTarget_writeReq, hown, eq_comm] using hread rfl rfl

/-! ### The reference sensor -/

/-- R66: a transaction that is not marked as failing is answered. -/
theorem exists_respond_ok (r : RefSensor) (req : BusReq) : ∃ b0 b1 r', r.respond req false = (.ok b0 b1, r') := by
  unfold RefSensor.respond
  rw [if_neg Bool.false_ne_true]
  split <;> exact ⟨_, _, _, rfl⟩

/-- R66: with none marked as failing, the reference sensor answers each of a command's remaining transactions. -/
theorem refAnswers_answered {cmd : Instr} {fuel k : Nat} (hk : k + fuel = txnCount cmd) (vals : List Word)
    (r : RefSensor) : (refAnswers cmd none fuel k vals r).1.length = fuel ∧
      ∀ d ∈ (refAnswers cmd none fuel k vals r).1, Answered d := by
  induction fuel generalizing k vals r with
  | zero => exact ⟨rfl, fun d hd => absurd hd List.not_mem_nil⟩
  | succ fuel ih =>
    obtain ⟨req, hreq⟩ := Option.isSome_iff_exists.mp ((request_isSome cmd vals k).mpr (by omega))
    obtain ⟨b0, b1, r', hrespond⟩ := exists_respond_ok r req
    have hmark : (none == some k) = false := rfl
    have hanswers : (refAnswers cmd none (fuel + 1) k vals r).1 =
        .ok b0 b1 :: (refAnswers cmd none fuel (k + 1) (vals ++ readValue req b0 b1) r').1 := by
      simp only [refAnswers, hreq, hmark, hrespond]
    obtain ⟨hlen, hrest⟩ := ih (k := k + 1) (by omega) (vals ++ readValue req b0 b1) r'
    rw [hanswers]
    refine ⟨by rw [List.length_cons, hlen], fun d hd => ?_⟩
    obtain rfl | hmem := List.mem_cons.mp hd
    · exact Draw.noConfusion
    · exact hrest d hmem

/-- R50: transactions that take their answers from the list. -/
theorem allAnswered_of_answers {s : State} {given more : List Draw} (hs : s.answers = given ++ more)
    (h : ∀ d ∈ given, Answered d) : AllAnswered s given.length := by
  intro j hj
  have hdraw : s.drawAt j = given[j] := by
    rw [State.drawAt, hs, List.getElem?_append_left hj, List.getElem?_eq_getElem hj]
  rw [hdraw]
  exact h _ (List.getElem_mem hj)

/-- Settles O56: the sensor's answers are as many as the command's transactions, and none fails. -/
theorem referenceSensorAnswersEveryCommand : Obligations.ReferenceSensorAnswersEveryCommand := by
  intro i r s more hs
  obtain ⟨hlen, hanswered⟩ := refAnswers_answered (Nat.zero_add (txnCount i)) [] r
  have hcount : (refCommand i none r).1.length = txnCount i := hlen
  have hall := allAnswered_of_answers hs hanswered
  rw [hcount] at hall
  refine ⟨_, exec_ok hall, rfl, ?answers, ?draws⟩
  case answers => simp [okRun, after, hs, ← hcount]
  case draws => simp [okRun, after, hs, ← hcount]

end Sys2Proof.Proofs
